-- ==== Sys2Proof/Word.lean ====
section
/-! DEFINITION. The words and indexes of the GL-716 (00_scope.md, Conventions). -/

namespace Sys2Proof

/-- One byte of a link frame. -/
abbrev Byte := BitVec 8

/-- A track time or a stamp: a 32-bit count of milliseconds that wraps (R130). -/
abbrev Time := BitVec 32

/-- A handset identity as carried, 0x0001..0xFFFE (00, Conventions). -/
abbrev Ident := BitVec 16

/-- A station link port, 0..3. -/
abbrev PortId := Fin 4

/-- A car, counted from 0: car number c of the manual (1..16) is index c - 1. -/
abbrev CarId := Fin 16

/-- A handset record, 0..23 (R19). -/
abbrev HandsetId := Fin 24

/-- A zone, 0..63. -/
abbrev ZoneId := Fin 64

/-- A switch, 0..31. -/
abbrev SwitchId := Fin 32

/-- A sensor, 0..127. -/
abbrev SensorId := Fin 128

/-- A marshal list entry, counted from 0: entry m of the manual (1..4) is index m - 1. -/
abbrev MarshalId := Fin 4

/-- A Bind Store row, counted from 0: row r of the manual (1..20) is index r - 1. -/
abbrev RowId := Fin 20

end Sys2Proof
end

