-- ==== Sys2Proof/Syntax.lean ====
section
/-! DEFINITION. The commands of the GL-716: one constructor per row of spec/opcode_table.json. -/

namespace Sys2Proof

/-- The commands. A request row carries the port whose transaction it ends and the payload values of
Table 10-3, as bytes; an event row carries the record, car or switch whose event it is. -/
inductive Instr where
  /-- HARD_RESET (R130): the levels of RCS0..RCS3 when they are sampled, bit n for RCSn. -/
  | hardReset (rcs : BitVec 4)
  /-- TRACK_TIME_TICK (R130). -/
  | trackTimeTick
  /-- RESTORE (R149). -/
  | restore
  /-- RESTORE_END (R150). -/
  | restoreEnd
  /-- SELN_FALL (R152). -/
  | selnFall (p : PortId)
  /-- REQUEST_FRAME (R153): the rise of SELn, with the bits sampled on SDIn since its fall, first bit first. -/
  | requestFrame (p : PortId) (sdi : List Bool)
  /-- POLL (R152). -/
  | poll (p : PortId)
  /-- TAKE (R160). -/
  | take (p : PortId)
  /-- PORT_STATUS (R162). -/
  | portStatus (p : PortId)
  /-- PORT_SET (R161). -/
  | portSet (p : PortId) (attentionLevel shedLevel : Byte)
  /-- PORT_RESET (R163). -/
  | portReset (p : PortId)
  /-- SELECT (R155). -/
  | select (p : PortId) (table index : Byte)
  /-- FETCH (R156). -/
  | fetch (p : PortId)
  /-- PUT (R157). -/
  | put (p : PortId) (values : List Byte)
  /-- APPLY (R158). -/
  | apply (p : PortId)
  /-- REPORT_HANDSET (R21). -/
  | reportHandset (p : PortId) (identity : Ident) (count throttle code battery strength : Byte)
  /-- STALE_EXPIRY (R29). -/
  | staleExpiry (h : HandsetId)
  /-- HANDSET_LOST_EXPIRY (R30). -/
  | handsetLostExpiry (h : HandsetId)
  /-- REPORT_CROSSING (R66). -/
  | reportCrossing (p : PortId) (sensor car age : Byte)
  /-- PIT_EXIT_RECHECK (R91). -/
  | pitExitRecheck (w : SwitchId)
  /-- REPORT_SWITCH_THROWN (R99); the position byte is carried and ignored (10.2). -/
  | reportSwitchThrown (p : PortId) (switch position : Byte)
  /-- REPORT_SWITCH_RETURNED (R100); the position byte is carried and ignored (10.2). -/
  | reportSwitchReturned (p : PortId) (switch position : Byte)
  /-- REPORT_SWITCH_JAMMED (R101). -/
  | reportSwitchJammed (p : PortId) (switch position : Byte)
  /-- ACTUATION_DEADLINE (R102): of a PENDING switch. -/
  | actuationDeadline (w : SwitchId)
  /-- HOLD_DEADLINE (R103): of a SET switch. -/
  | holdDeadline (w : SwitchId)
  /-- RESTORING_ACTUATION_DEADLINE (R104): of a RESTORING switch. -/
  | restoringActuationDeadline (w : SwitchId)
  /-- INTENT_EXPIRY (R84). -/
  | intentExpiry (c : CarId)
  /-- CONFLICT_CAP_END (R107). -/
  | conflictCapEnd (c : CarId)
  /-- STALL (R75). -/
  | stall (c : CarId)
  /-- OFFER_EXPIRY (R50): of the car's offer (the list holds no car twice, R49). -/
  | offerExpiry (c : CarId)
  /-- PAIRING_WINDOW_EXPIRY (R47). -/
  | pairingWindowExpiry
  /-- LAMP_EXPIRY (R117). -/
  | lampExpiry
  /-- START (R116). -/
  | start (p : PortId)
  /-- STOP (R118). -/
  | stop (p : PortId)
  /-- CAUTION (R119). -/
  | caution (p : PortId)
  /-- GREEN (R119). -/
  | green (p : PortId)
  /-- PIT_OPEN (R123). -/
  | pitOpen (p : PortId)
  /-- PIT_CLOSE (R123). -/
  | pitClose (p : PortId)
  /-- ZONE_LOCK (R124). -/
  | zoneLock (p : PortId) (zone lock : Byte)
  /-- TRACK_CLEAR (R126). -/
  | trackClear (p : PortId)
  /-- SWITCH_DISABLE (R109). -/
  | switchDisable (p : PortId) (switch : Byte)
  /-- SWITCH_ENABLE (R109). -/
  | switchEnable (p : PortId) (switch : Byte)
  /-- SWITCH_CLEAR (R109). -/
  | switchClear (p : PortId) (switch : Byte)
  /-- LAYOUT_RUN (R12). -/
  | layoutRun (p : PortId)
  /-- LAYOUT_EDIT (R16). -/
  | layoutEdit (p : PortId)
  /-- OPEN_PAIRING (R46). -/
  | openPairing (p : PortId) (seconds : Byte)
  /-- CLOSE_PAIRING (R47). -/
  | closePairing (p : PortId)
  /-- RELEASE (R59). -/
  | release (p : PortId) (car : Byte)
  /-- STORE_SAVE (R146). -/
  | storeSave (p : PortId) (row : Byte)
  /-- WRITER_COMMIT_START (R143). -/
  | writerCommitStart
  /-- WRITER_STEP_END (R144). -/
  | writerStepEnd
  /-- COMMIT_COMPLETION (R144). -/
  | commitCompletion
  /-- STWE_FALL (R145). -/
  | stweFall
  /-- STWE_RISE (R143). -/
  | stweRise
  /-- RAIL_FRAME_START (R131). -/
  | railFrameStart
  /-- BROADCAST_WORD (R136). -/
  | broadcastWord
  /-- CAR_WORD (R137). -/
  | carWord (c : CarId)
  /-- QUIET_WINDOW (R134). -/
  | quietWindow
  /-- REPORT_SWITCH_UNKNOWN_KIND (R98): a REPORT SWITCH request whose kind byte names no report. -/
  | reportSwitchUnknownKind (p : PortId) (switch kind position : Byte)
  deriving DecidableEq, Repr

end Sys2Proof
end

