-- ==== Sys2Proof/WellFormed.lean ====
section
/-! DEFINITION. The checks a command's operands meet. Ports, records, cars and switches are in range by
their types; what is left is the payload size of PUT and the kind byte of the unknown-kind switch report. -/

namespace Sys2Proof

/-- A PUT frame carries 1..16 bytes of field values (R157, Table 10-3). -/
def putLengthOk (values : List Byte) : Bool := 1 ≤ values.length && values.length ≤ 16

/-- The report kinds of REPORT SWITCH are 0 THROWN, 1 RETURNED and 2 JAMMED (10.2). -/
def unknownReportKind (kind : Byte) : Bool := 2 < kind.toNat

/-- Whether a command's operands are as its row has them. -/
def Instr.wellFormed : Instr → Bool
  | .put _ values => putLengthOk values
  | .reportSwitchUnknownKind _ _ kind _ => unknownReportKind kind
  | .hardReset _ | .trackTimeTick | .restore | .restoreEnd | .selnFall _ | .requestFrame _ _
  | .poll _ | .take _ | .portStatus _ | .portSet _ _ _ | .portReset _ | .select _ _ _ | .fetch _
  | .apply _ | .reportHandset _ _ _ _ _ _ _ | .staleExpiry _ | .handsetLostExpiry _
  | .reportCrossing _ _ _ _ | .pitExitRecheck _ | .reportSwitchThrown _ _ _
  | .reportSwitchReturned _ _ _ | .reportSwitchJammed _ _ _ | .actuationDeadline _
  | .holdDeadline _ | .restoringActuationDeadline _ | .intentExpiry _ | .conflictCapEnd _
  | .stall _ | .offerExpiry _ | .pairingWindowExpiry | .lampExpiry | .start _ | .stop _
  | .caution _ | .green _ | .pitOpen _ | .pitClose _ | .zoneLock _ _ _ | .trackClear _
  | .switchDisable _ _ | .switchEnable _ _ | .switchClear _ _ | .layoutRun _ | .layoutEdit _
  | .openPairing _ _ | .closePairing _ | .release _ _ | .storeSave _ _ | .writerCommitStart
  | .writerStepEnd | .commitCompletion | .stweFall | .stweRise | .railFrameStart
  | .broadcastWord | .carWord _ | .quietWindow => true

end Sys2Proof
end

