-- ==== Sys2Proof/Decode.lean ====
section
/-! DEFINITION. The commands that spec/opcode_table.json spells by bits: none. No row of the table gives
a match, a mask or a field, so no word spells a command. -/

namespace Sys2Proof

/-- The command that a word spells by the table's bits: no row gives bits, so no word spells one. -/
def decodeTableWord (_nbits _w : Nat) : Option Instr := none

end Sys2Proof
end

