-- ==== Sys2Proof/Config.lean ====
section
/-! DEFINITION. The free values: what the data book leaves open. Nothing is known of these constants. -/

namespace Sys2Proof

/-- DESIGN CHOICE (log 9): the field number of the RANGE refusal of a PUT whose bytes run on past the last
writable field. R157 says "the number of the field concerned" and names no field there. Applied to State's
free-value counter. -/
opaque Config.overrunField : Nat → Byte

/-- DESIGN CHOICE (log 10): which of several offending payload values the RANGE refusal of one request
names, where R154 names "the offending value". Applied to State's free-value counter; only its remainder
by the number of offending places is read. -/
opaque Config.offendingChoice : Nat → Nat

/-- What a Bind Store row holds (R142): for a car row an identity or EMPTY (none), a ceiling and a permit, 0 ALLOWED and 1
BARRED as in Table 10-5 (log 17); for a marshal row an identity or EMPTY. A content may lie outside the values of R142. -/
inductive StoreContent where
  | car (identity : Option Ident) (ceiling permit : Byte)
  | marshal (identity : Option Ident)
  deriving DecidableEq, Repr

/-- DESIGN CHOICE (log 17): the check that agrees with no content, which the first step of a commit writes. R142 gives
no value. -/
opaque Config.voidCheck : Byte

/-- DESIGN CHOICE (log 17): the 8-bit check computed over a content, counted among the 255 bytes that are not
Config.voidCheck. R142 gives no algorithm. -/
opaque Config.contentCheck : StoreContent → Fin 255

end Sys2Proof
end

