-- ==== Sys2Proof/Machine/State.lean ====
section
/-! DEFINITION. The state of the GL-716, block by block (Table 0-2), and its reset values. Fields that the
data book ties together (a zone absent exactly in UNKNOWN, an identity absent exactly in VACANT, a claim
exactly in PENDING and SET) are one Option or one constructor, so that no state breaks the tie (log 20). -/

namespace Sys2Proof.Machine

/-! ## Enumerations (Table 10-5) -/

/-- The layout phase (R11). -/
inductive Phase where
  | layout | run
  deriving DecidableEq, Repr

/-- Switch kinds (Table 1-3). -/
inductive SwitchKind where
  | crossover | pitEntry | pitExit
  deriving DecidableEq, Repr

/-- Switch directions IN and OUT (Table 1-2). -/
inductive Direction where
  | inward | outward
  deriving DecidableEq, Repr

/-- What the Lane Arbiter believes of the flap or gate (5.2). -/
inductive Position where
  | normal | thrown | unknown
  deriving DecidableEq, Repr

/-- The run states of a switch (5.2). -/
inductive RunState where
  | ready | pending | set | restoring | faulted | disabled
  deriving DecidableEq, Repr

/-- Link states of a handset record in use (2.4). -/
inductive LinkState where
  | acquiring | live | stale | lost
  deriving DecidableEq, Repr

/-- The full-alert flag (R23). -/
inductive FullAlert where
  | armed | sent
  deriving DecidableEq, Repr

/-- The states of a binding record that holds an identity (3.2); VACANT is its absence. -/
inductive HeldState where
  | reserved | bound | suspended
  deriving DecidableEq, Repr

/-- The cause that last gave a binding record its identity (R40). -/
inductive Source where
  | paired | manual | restored
  deriving DecidableEq, Repr

/-- The lane-change permit (R40). -/
inductive Permit where
  | allowed | barred
  deriving DecidableEq, Repr

/-- The store mark (R41). -/
inductive Mark where
  | clean | dirty
  deriving DecidableEq, Repr

/-- Whether a car joined its zone by a crossing or by a grant (R64). -/
inductive Way where
  | sensor | switch
  deriving DecidableEq, Repr

/-- The lane codes an intent holds (R83). -/
inductive LaneCode where
  | shiftIn | shiftOut | pit
  deriving DecidableEq, Repr

/-- The outcome a claim has recorded (Table 5-4). -/
inductive ClaimOutcome where
  | opened | taken | missed
  deriving DecidableEq, Repr

/-- The final outcome of a claim (Table 5-5). -/
inductive FinalOutcome where
  | recorded (o : ClaimOutcome) | lapsed | aborted
  deriving DecidableEq, Repr

/-- The reasons of a DENY or a HOLD (Tables 5-3 and 10-5). -/
inductive DecisionReason where
  | course | barred | busy | faulted | disabled | locked | pitClosed | blocked | guardTime | full
  | approach | queue | wait
  deriving DecidableEq, Repr

/-- The result of a decision (R89). -/
inductive Decision where
  | grant | deny (r : DecisionReason) | hold (r : DecisionReason)
  deriving DecidableEq, Repr

/-- The course (6.2). -/
inductive Course where
  | stop | countdown | green | caution
  deriving DecidableEq, Repr

/-- The cause of a change of course (R115). -/
inductive CourseCause where
  | request (p : PortId) | marshal (identity : Ident) | auto (w : SwitchId) | countdownEnd
  deriving DecidableEq, Repr

/-- The cause of a switch fault (R105). -/
inductive FaultCause where
  | jammed | actuation | restoreQueue
  deriving DecidableEq, Repr

/-- Results of a PAIR edge that offer a notice (Table 3-3). -/
inductive PairResult where
  | ok | same | closed | weak | noCar
  deriving DecidableEq, Repr

/-- Results of a marshal edge (Table 6-4). -/
inductive MarshalResult where
  | applied | noEffect | notLive
  deriving DecidableEq, Repr

/-- The switch requests (R109). -/
inductive SwitchRequest where
  | disable | enable | clear
  deriving DecidableEq, Repr

/-- The outcomes of a SAVE commit (R146). -/
inductive StoreOutcome where
  | clean | dirty | cut
  deriving DecidableEq, Repr

/-- A car or a marshal entry, as a notice names the holder of an identity (R167). -/
inductive Holder where
  | car (c : CarId) | marshal (m : MarshalId)
  deriving DecidableEq, Repr

/-! ## Geometry Table (01) -/

/-- A zone record (Table 1-1). -/
structure Zone where
  defined : Bool
  lane : Byte
  capacity : Byte
  guardTime : BitVec 16
  stallTime : BitVec 16
  revision : Byte
  deriving DecidableEq, Repr

/-- The geometry part of a switch record (Table 1-2); its run state and position are the Lane Arbiter's (R5). -/
structure Switch where
  defined : Bool
  kind : SwitchKind
  owner : PortId
  direction : Direction
  entryZone : ZoneId
  targetZone : ZoneId
  watchZone : Option ZoneId
  watchTime : BitVec 16
  actuationTime : BitVec 16
  holdLimit : BitVec 16
  revision : Byte
  deriving DecidableEq, Repr

/-- A sensor's kind with the optional fields that kind uses (R7). -/
inductive SensorKind where
  | boundary (zone : ZoneId)
  | entry (zone : ZoneId) (switch : SwitchId)
  | pairing
  deriving DecidableEq, Repr

/-- A sensor record (Table 1-4). -/
structure Sensor where
  defined : Bool
  kind : SensorKind
  owner : PortId
  revision : Byte
  deriving DecidableEq, Repr

structure Geometry where
  phase : Phase
  zones : Vector Zone 64
  switches : Vector Switch 32
  sensors : Vector Sensor 128
  deriving DecidableEq, Repr

/-! ## Handset Table (02) -/

/-- A handset record in use (Table 2-1). -/
structure Handset where
  identity : Ident
  link : LinkState
  lastCount : BitVec 4
  throttle : BitVec 6
  heldCode : BitVec 4
  candidateCode : BitVec 4
  heardStation : PortId
  batteryLow : Bool
  lastStrength : BitVec 4
  boundCar : Option CarId
  marshal : Bool
  duplicateCount : Nat
  lateCount : Nat
  reportStamp : Time
  stateStamp : Time
  deriving DecidableEq, Repr

/-- The 24 records (none: free, all fields at the free values of Table 2-1) and the full-alert flag. -/
structure HandsetTable where
  records : Vector (Option Handset) 24
  fullAlert : FullAlert
  deriving DecidableEq, Repr

/-! ## Binding Table and Pairing Controller (03) -/

/-- The identity a binding record holds, with its source and state (Table 3-1). -/
structure Held where
  identity : Ident
  source : Source
  state : HeldState
  deriving DecidableEq, Repr

/-- A binding record; held none is VACANT, with identity and source absent. -/
structure Binding where
  held : Option Held
  ceiling : BitVec 6
  permit : Permit
  revision : Byte
  mark : Mark
  deriving DecidableEq, Repr

/-- A marshal list entry (R60). -/
structure MarshalEntry where
  identity : Option Ident
  revision : Byte
  mark : Mark
  deriving DecidableEq, Repr

/-- An entry of the offer list (R49). -/
structure Offer where
  car : CarId
  sensor : SensorId
  stamp : Time
  deriving DecidableEq, Repr

/-- The window is some expiry while OPEN and none while CLOSED (R46). -/
structure BindingTable where
  bindings : Vector Binding 16
  marshals : Vector MarshalEntry 4
  window : Option Time
  offers : List Offer
  deriving DecidableEq, Repr

/-! ## Car Tracker (04) -/

/-- Where a placed car is (Table 4-1): its zone, entry stamp and way, and whether it is STALLED or TRACKED. -/
structure Placed where
  zone : ZoneId
  entryStamp : Time
  way : Way
  stalled : Bool
  deriving DecidableEq, Repr

/-- A position record; placed none is UNKNOWN. -/
structure CarRecord where
  placed : Option Placed
  lastSensor : Option SensorId
  lastStamp : Time
  stallDeadline : Option Time
  deriving DecidableEq, Repr

/-- An entry of an occupancy list (R65). -/
structure Occupant where
  car : CarId
  entryStamp : Time
  way : Way
  deriving DecidableEq, Repr

structure Tracker where
  cars : Vector CarRecord 16
  lists : Vector (List Occupant) 64
  deriving DecidableEq, Repr

/-! ## Lane Arbiter (05) -/

/-- A lane intent (R83). -/
structure Intent where
  code : LaneCode
  expiry : Time
  deriving DecidableEq, Repr

/-- A claim record (Table 5-4). -/
structure Claim where
  car : CarId
  grantStamp : Time
  priorZone : ZoneId
  priorStamp : Time
  outcome : ClaimOutcome
  deriving DecidableEq, Repr

/-- The run state of a switch with the deadline and the claim that the state holds (R85, R95). -/
inductive SwitchMode where
  | ready
  | pending (deadline : Time) (claim : Claim)
  | set (deadline : Time) (claim : Claim)
  | restoring (deadline : Time)
  | faulted
  | disabled
  deriving DecidableEq, Repr

/-- An entry of a hold list (5.4). -/
structure Hold where
  car : CarId
  reason : DecisionReason
  deriving DecidableEq, Repr

/-- What the Lane Arbiter holds for one switch (R85). -/
structure SwitchState where
  mode : SwitchMode
  position : Position
  holds : List Hold
  recheck : Option Time
  deriving DecidableEq, Repr

/-- A CONFLICT cap (R107). -/
structure ConflictCap where
  value : BitVec 6
  ends : Time
  deriving DecidableEq, Repr

/-- A BUSY cap (R108). -/
structure BusyCap where
  value : BitVec 6
  switch : SwitchId
  deriving DecidableEq, Repr

/-- Intents and caps per car, run states per switch. A PIT_HOLD cap holds its switch; its value is 0 (R106). -/
structure LaneArbiter where
  intents : Vector (Option Intent) 16
  switches : Vector SwitchState 32
  conflictCaps : Vector (Option ConflictCap) 16
  busyCaps : Vector (Option BusyCap) 16
  pitHolds : Vector (Option SwitchId) 16
  deriving DecidableEq, Repr

/-! ## Course Controller (06) -/

/-- The settings record (Table 6-5). -/
structure Settings where
  cautionCap : BitVec 6
  pitLimit : BitVec 6
  intentLife : BitVec 16
  pairingFloor : BitVec 4
  conflictCap : BitVec 6
  conflictHold : BitVec 16
  busyCap : BitVec 6
  autoCaution : Bool
  autoSave : Bool
  revision : Byte
  deriving DecidableEq, Repr

/-- The zone lock set holds zone z exactly when locks[z] is true (R124). -/
structure CourseControl where
  course : Course
  lampCount : Nat
  nextLamp : Option Time
  pitOpen : Bool
  locks : Vector Bool 64
  settings : Settings
  deriving DecidableEq, Repr

/-! ## Frame Sequencer (07) -/

/-- Track time, start-up and the rail frame. bitCounter is the position of the bit period being sent, rdo the bits of
the part being sent, first bit first (empty: idle, low). starting is YES from hard reset until the start-up ends (R150),
restored says that this start-up's restore has run. -/
structure Sequencer where
  trackTime : Time
  starting : Bool
  restored : Bool
  running : Bool
  frameCounter : Fin 8
  bitCounter : Fin 200
  nextFrame : Time
  rdo : List Bool
  win : Bool
  deriving DecidableEq, Repr

/-! ## Bind Store (08) -/

/-- A row: its content, none once the first step of a commit has taken it away, and its 8-bit check, held as the
exclusive or of the check with the one computed over the content (rowCheck; log 17): 0 where they agree. -/
structure StoreRow where
  content : Option StoreContent
  checkDiff : Byte
  deriving DecidableEq, Repr

/-- The origin of a commit (R143). -/
inductive Origin where
  | auto | save (p : PortId)
  deriving DecidableEq, Repr

/-- A commit in progress: its row, the snapshot of the entry, its origin, and the end of its step (R143). -/
structure Commit where
  row : RowId
  content : StoreContent
  revision : Byte
  origin : Origin
  stepEnd : Time
  deriving DecidableEq, Repr

inductive Writer where
  | idle
  | invalidating (c : Commit)
  | writing (c : Commit)
  deriving DecidableEq, Repr

/-- The rows, the writer, and the level of the STWE input (true: high). -/
structure BindStore where
  rows : Vector StoreRow 20
  writer : Writer
  stwe : Bool
  deriving DecidableEq, Repr

/-! ## Station Link Ports (09) -/

/-- The reasons of a REFUSED reply (Table 10-2), with the data they carry (R154). -/
inductive Reason where
  | notPermitted | phase | state | range (field : Byte) | inUse | marshal | staleRecord | readOnly
  | notOwner | unknownRequest | storeBusy | storeProtected | noStaging | starting
  | layoutFault (table index : Byte)
  deriving DecidableEq, Repr

/-- The reply buffer (Table 9-1). -/
inductive Reply where
  | idle
  | done (payload : List Byte)
  | refused (r : Reason)
  | checkError
  | frameError
  deriving DecidableEq, Repr

/-- A table and an index within its range (Table 9-3). -/
inductive RecordRef where
  | zone (z : ZoneId)
  | switch (w : SwitchId)
  | sensor (n : SensorId)
  | binding (c : CarId)
  | marshal (m : MarshalId)
  | settings
  | handset (h : HandsetId)
  | car (c : CarId)
  deriving DecidableEq, Repr

/-- Whether an apply of the staging depends on a revision (R155); a HANDSET or CAR record carries none. -/
inductive StagingMode where
  | unconditional
  | conditional (revision : Option Byte)
  deriving DecidableEq, Repr

/-- A staging record that is not EMPTY: the record's byte image (R166) and the number of the next writable field. -/
structure Staging where
  mode : StagingMode
  ref : RecordRef
  image : List Byte
  field : Nat
  deriving DecidableEq, Repr

/-- The classes of a notice (9.5). -/
inductive NoticeClass where
  | directive | alert | info
  deriving DecidableEq, Repr

/-- What a notice says: one constructor per kind of Table 10-6. -/
inductive NoticeBody where
  | throwSwitch (w : SwitchId) (c : CarId)
  | restoreSwitch (w : SwitchId)
  | course (new old : Course) (lampCount : Nat) (cause : CourseCause)
  | layout (phase : Phase)
  | switchFault (w : SwitchId) (cause : FaultCause) (runStateLeft : RunState) (position : Position)
  | stall (c : CarId) (z : ZoneId) (stallTime : BitVec 16)
  | trackClear (restoring faulted : Nat)
  | handsetTableFull (identity : Ident)
  | linkErrors (p : PortId) (count : Nat)
  | storeRowLost (r : RowId)
  | restoreDuplicate (r : RowId) (identity : Ident) (holder : Holder)
  | decision (w : SwitchId) (c : CarId) (result : Decision)
  | claimClosed (w : SwitchId) (c : CarId) (outcome : FinalOutcome) (grantStamp : Time)
  | missed (w : SwitchId) (c : CarId) (sensor : SensorId)
  | conflict (c : CarId) (z : ZoneId) (other : CarId)
  | lateCrossing (c : CarId) (sensor : SensorId) (p : PortId) (interval : Nat)
  | jump (c : CarId) (sensor : SensorId) (lampCount : Nat) (stamp : Time)
  | binding (c : CarId) (held : Option Held) (revision : Byte)
  | pairResult (identity : Ident) (result : PairResult) (c : Option CarId)
  | pairing (seconds : Option Byte)
  | handsetState (identity : Ident) (link : LinkState) (holder : Holder)
  | battery (identity : Ident) (low : Bool) (c : Option CarId)
  | marshalList (m : MarshalId) (identity : Option Ident) (revision : Byte)
  | marshalAction (identity : Ident) (code : LaneCode) (result : MarshalResult)
  | pit (opened : Bool)
  | zoneLock (z : ZoneId) (locked : Bool)
  | switchState (w : SwitchId) (request : SwitchRequest) (runState : RunState) (position : Position)
  | settings (revision : Byte)
  | storeDone (r : RowId) (outcome : StoreOutcome)
  deriving DecidableEq, Repr

/-- A notice of a queue: what it says, and the low 16 bits of the track time when it was offered (R167). -/
structure Notice where
  body : NoticeBody
  stamp : BitVec 16
  deriving DecidableEq, Repr

/-- One station link port. selLow is the level of SELn (true: low, a transaction in progress); discarded says that a hard
reset has discarded the transaction in which SELn is still low; shiftFrame is the reply frame composed at the fall of SELn
(R152). -/
structure Port where
  raceControl : Bool
  selLow : Bool
  discarded : Bool
  shiftFrame : List Byte
  reply : Reply
  staging : Option Staging
  cursor : Option RecordRef
  queue : List Notice
  attentionLevel : Nat
  shedLevel : Nat
  shedCount : Nat
  lostCount : Nat
  linkErrors : Nat
  checkError : Bool
  deriving DecidableEq, Repr

/-! ## The whole state -/

/-- The state of the GL-716: its blocks, the strap levels last sampled, the free-value counter (the model's own,
log 11) and the queue of commands that wait. -/
structure State where
  seq : Sequencer
  geo : Geometry
  handsets : HandsetTable
  binding : BindingTable
  tracker : Tracker
  lane : LaneArbiter
  course : CourseControl
  store : BindStore
  ports : Vector Port 4
  rcs : BitVec 4
  freeCount : Nat
  pending : List Instr
  deriving DecidableEq, Repr

/-- The ways the block stops. There is none: the data book has every request answered and every event taken,
so no meaning faults. -/
inductive Fault where
  deriving DecidableEq, Repr

/-- The commands without a meaning. -/
inductive Refusal where
  /-- Raised by an arm of exec whose command has no meaning yet; no arm does. Safe: nothing is said of the command. -/
  | notModelled (mnemonic : String)
  deriving DecidableEq, Repr

/-! ## Reset values -/

/-- Table 1-1. -/
def Zone.reset : Zone :=
  { defined := false, lane := 0, capacity := 1, guardTime := 250, stallTime := 0, revision := 0 }

/-- Table 1-2. -/
def Switch.reset : Switch :=
  { defined := false, kind := .crossover, owner := 0, direction := .inward, entryZone := 0, targetZone := 0,
    watchZone := none, watchTime := 400, actuationTime := 80, holdLimit := 1500, revision := 0 }

/-- Table 1-4. -/
def Sensor.reset : Sensor :=
  { defined := false, kind := .boundary 0, owner := 0, revision := 0 }

/-- R1, R3, R6, R11. -/
def Geometry.reset : Geometry :=
  { phase := .layout, zones := Vector.replicate 64 .reset, switches := Vector.replicate 32 .reset,
    sensors := Vector.replicate 128 .reset }

/-- R19, R23. -/
def HandsetTable.reset : HandsetTable :=
  { records := Vector.replicate 24 none, fullAlert := .armed }

/-- Table 3-1. -/
def Binding.reset : Binding :=
  { held := none, ceiling := 63, permit := .allowed, revision := 0, mark := .clean }

/-- R60. -/
def MarshalEntry.reset : MarshalEntry := { identity := none, revision := 0, mark := .clean }

/-- R40, R46, R49, R60. -/
def BindingTable.reset : BindingTable :=
  { bindings := Vector.replicate 16 .reset, marshals := Vector.replicate 4 .reset, window := none,
    offers := [] }

/-- Table 4-1. -/
def CarRecord.reset : CarRecord :=
  { placed := none, lastSensor := none, lastStamp := 0, stallDeadline := none }

/-- R64, R65. -/
def Tracker.reset : Tracker :=
  { cars := Vector.replicate 16 .reset, lists := Vector.replicate 64 [] }

/-- R85. -/
def SwitchState.reset : SwitchState :=
  { mode := .ready, position := .normal, holds := [], recheck := none }

/-- R83, R85, R106. -/
def LaneArbiter.reset : LaneArbiter :=
  { intents := Vector.replicate 16 none, switches := Vector.replicate 32 .reset,
    conflictCaps := Vector.replicate 16 none, busyCaps := Vector.replicate 16 none,
    pitHolds := Vector.replicate 16 none }

/-- Table 6-5. -/
def Settings.reset : Settings :=
  { cautionCap := 24, pitLimit := 20, intentLife := 2000, pairingFloor := 10, conflictCap := 16,
    conflictHold := 600, busyCap := 16, autoCaution := true, autoSave := true, revision := 0 }

/-- R115, R123, R124, R127. -/
def CourseControl.reset : CourseControl :=
  { course := .stop, lampCount := 0, nextLamp := none, pitOpen := false, locks := Vector.replicate 64 false,
    settings := .reset }

/-- R130, R131, R133, R150. The reset values of the bit counter and of the frame counter are a DESIGN CHOICE (log 16): R133
names reset values and gives none, and R131 gives the frame counter as 0 from the first frame on. -/
def Sequencer.reset : Sequencer :=
  { trackTime := 0, starting := true, restored := false, running := false, frameCounter := 0,
    bitCounter := 0, nextFrame := 4, rdo := [], win := false }

/-- The content of a row as delivered (R142). -/
def deliveredContent (r : RowId) : StoreContent := if r.val < 16 then .car none 63 0 else .marshal none

/-- The store at State.reset: rows as delivered, STWE low (DESIGN CHOICE, log 5). -/
def BindStore.delivered : BindStore :=
  { rows := Vector.ofFn fun r => StoreRow.mk (some (deliveredContent r)) 0, writer := .idle, stwe := false }

/-- Table 9-5, hard reset column. -/
def Port.reset (raceControl : Bool) : Port :=
  { raceControl, selLow := false, discarded := false, shiftFrame := [], reply := .idle, staging := none, cursor := none,
    queue := [], attentionLevel := 1, shedLevel := 24, shedCount := 0, lostCount := 0, linkErrors := 0,
    checkError := false }

/-- The machine right after a hard reset, as delivered, with all straps low, STWE low and every SELn high
(DESIGN CHOICE, log 5: the data book fixes no level of an input pin); with all straps low, port 0 alone
holds race-control rights (R114). -/
def State.reset : State :=
  { seq := .reset, geo := .reset, handsets := .reset, binding := .reset, tracker := .reset, lane := .reset,
    course := .reset, store := .delivered, ports := Vector.ofFn fun p => Port.reset (p.val == 0), rcs := 0, freeCount := 0, pending := [] }

end Sys2Proof.Machine
end

