-- ==== Sys2Proof/Machine/Ops.lean ====
section
/-! DEFINITION. The shared operations: banks of records, track times, notices, replies, and the operations of
each block that several commands use. -/

namespace Sys2Proof.Machine

/-! ## Banks of records -/

/-- A bank with record i rewritten by f. -/
def modAt {α : Type} {n : Nat} (v : Vector α n) (i : Fin n) (f : α → α) : Vector α n :=
  v.set i (f v[i])

/-- A bank with every record rewritten by f. -/
def mapAll {α β : Type} {n : Nat} (v : Vector α n) (f : Fin n → α → β) : Vector β n :=
  Vector.ofFn fun i => f i v[i]

/-- The lowest index below n that meets p. -/
def firstIdx (n : Nat) (p : Fin n → Bool) : Option (Fin n) := (List.finRange n).find? p

/-! ## Track times (00, Conventions: every comparison is by the modular difference) -/

/-- Whether the track time has reached a deadline: the modular difference is below half the range (log 3). -/
def reached (now deadline : Time) : Bool := (now - deadline).toNat < 2147483648

/-- Whether a deadline is present and reached. -/
def dueAt (now : Time) : Option Time → Bool
  | some d => reached now d
  | none => false

/-- The time since a stamp (R88). -/
def since (now stamp : Time) : Nat := (now - stamp).toNat

/-- A track time moved on by a number of milliseconds. -/
def addMs (t : Time) (ms : Nat) : Time := t + BitVec.ofNat 32 ms

/-- Within 100 ms of one another, the shorter way round (R68). -/
def within100 (a b : Time) : Bool := (a - b).toNat < 100 || (b - a).toNat < 100

/-- a is earlier than b: the modular difference a - b, taken as a signed value, is negative (R69). -/
def earlier (a b : Time) : Bool := (a - b).msb

/-- A count that stops at 255 (00, Conventions). -/
def satInc (n : Nat) : Nat := min (n + 1) 255

/-- Now: the track time at which the event is taken (R130). -/
abbrev State.now (s : State) : Time := s.seq.trackTime

/-! ## Ports, replies and notices (09) -/

/-- Rewrite one port. -/
def State.modPort (s : State) (p : PortId) (f : Port → Port) : State :=
  { s with ports := modAt s.ports p f }

/-- Put a reply into a port's reply buffer (R152). -/
def State.reply (s : State) (p : PortId) (r : Reply) : State :=
  s.modPort p fun pt => { pt with reply := r }

/-- A REFUSED reply (R154). -/
def State.refuse (s : State) (p : PortId) (r : Reason) : State := s.reply p (.refused r)

/-- A DONE reply (R154). -/
def State.done (s : State) (p : PortId) (payload : List Byte) : State := s.reply p (.done payload)

/-- A RANGE refusal naming an offending place of the payload (R154). With one offending place it names that one;
with several, which of them is a free value (log 10). -/
def State.refuseRange (s : State) (p : PortId) (places : List Byte) : State :=
  match places with
  | [k] => s.refuse p (.range k)
  | ks =>
    { s with freeCount := s.freeCount + 1 }.refuse p
      (.range (ks.getD (Config.offendingChoice s.freeCount % ks.length) 0))

/-- Whether a port holds race-control rights (R114). -/
def State.hasRights (s : State) (p : PortId) : Bool := s.ports[p].raceControl

/-- The class of each notice kind (Table 10-6). -/
def NoticeBody.cls : NoticeBody → NoticeClass
  | .throwSwitch _ _ | .restoreSwitch _ => .directive
  | .course _ _ _ _ | .layout _ | .switchFault _ _ _ _ | .stall _ _ _ | .trackClear _ _
  | .handsetTableFull _ | .linkErrors _ _ | .storeRowLost _ | .restoreDuplicate _ _ _ => .alert
  | .decision _ _ _ | .claimClosed _ _ _ _ | .missed _ _ _ | .conflict _ _ _ | .lateCrossing _ _ _ _
  | .jump _ _ _ _ | .binding _ _ _ | .pairResult _ _ _ | .pairing _ | .handsetState _ _ _
  | .battery _ _ _ | .marshalList _ _ _ | .marshalAction _ _ _ | .pit _ | .zoneLock _ _
  | .switchState _ _ _ _ | .settings _ | .storeDone _ _ => .info

/-- The level of a port's queue: the number of its entries (9.5). -/
abbrev Port.level (pt : Port) : Nat := pt.queue.length

/-- Taking an offered notice, by class and level (Table 9-4). A DIRECTIVE that meets a full queue is not queued;
the offering block acts on it (R94). -/
def Port.offer (pt : Port) (n : Notice) : Port :=
  match n.body.cls with
  | .directive => if pt.level < 32 then { pt with queue := pt.queue ++ [n] } else pt
  | .alert =>
    if pt.level < 32 then { pt with queue := pt.queue ++ [n] } else { pt with lostCount := satInc pt.lostCount }
  | .info =>
    if pt.level < pt.shedLevel && pt.level < 32 then { pt with queue := pt.queue ++ [n] }
    else { pt with shedCount := satInc pt.shedCount }

/-- Offer a notice to every port that meets a test, stamped with the low 16 bits of the track time (R159, R167). -/
def State.offerWhere (s : State) (dest : PortId → Bool) (body : NoticeBody) : State :=
  { s with ports := mapAll s.ports fun p pt => if dest p then pt.offer ⟨body, s.now.setWidth 16⟩ else pt }

/-- Offer a notice to one port. -/
def State.offerTo (s : State) (p : PortId) (body : NoticeBody) : State := s.offerWhere (· == p) body

/-- Offer a notice to each of the four ports. -/
def State.offerAll (s : State) (body : NoticeBody) : State := s.offerWhere (fun _ => true) body

/-- Offer a notice to each race-control port (R114). -/
def State.offerRaceControl (s : State) (body : NoticeBody) : State := s.offerWhere s.hasRights body

/-- Offer a notice to one port and to each race-control port, once to a port that is both (R114). -/
def State.offerWithRaceControl (s : State) (p : PortId) (body : NoticeBody) : State :=
  s.offerWhere (fun q => q == p || s.hasRights q) body

/-- Whether a port's queue holds 32 entries (check 9 of Table 5-3, R94). -/
def State.queueFull (s : State) (p : PortId) : Bool := 32 ≤ s.ports[p].level

/-- The rise of SELn ends the transaction; what is left of the reply frame is not kept (R152). -/
def State.endTransaction (s : State) (p : PortId) : State :=
  s.modPort p fun pt => { pt with selLow := false, shiftFrame := [] }

/-- The rise of SELn: a transaction that a hard reset has discarded takes no request; any other hands its request to op
(R152). -/
def State.riseOfSel (s : State) (p : PortId) (op : State → State) : State :=
  if s.ports[p].discarded then (s.endTransaction p).modPort p fun pt => { pt with discarded := false }
  else op (s.endTransaction p)

/-- A request frame that has passed tests 2 to 5 of R153 is taken: refused STARTING until the start-up has ended
(test 1); otherwise the check-error flag is cleared and the request is handed on. -/
def State.request (s : State) (p : PortId) (op : State → State) : State :=
  s.riseOfSel p fun s =>
    if s.seq.starting then s.refuse p .starting
    else op (s.modPort p fun pt => { pt with checkError := false })

/-- A request reserved to race control: NOT_PERMITTED without rights, before every other test (R114). -/
def State.reserved (s : State) (p : PortId) (op : State → State) : State :=
  if s.hasRights p then op s else s.refuse p .notPermitted

/-- A frame that fails for its form or its CRC increments the link error count; the step from 15 to 16 offers
LINK_ERRORS to race control (R153). -/
def State.countLinkError (s : State) (p : PortId) : State :=
  let n := s.ports[p].linkErrors
  let s := s.modPort p fun pt => { pt with linkErrors := satInc n }
  if n = 15 then s.offerRaceControl (.linkErrors p 16) else s

/-- FRAME_ERROR (R153). -/
def State.frameError (s : State) (p : PortId) : State := (s.countLinkError p).reply p .frameError

/-! ## Course (06) -/

/-- A change of the course, with its COURSE notice (R115). -/
def State.changeCourse (s : State) (new : Course) (lamps : Nat) (next : Option Time) (cause : CourseCause) :
    State :=
  { s with course := { s.course with course := new, lampCount := lamps, nextLamp := next } }.offerAll
    (.course new s.course.course lamps cause)

/-- The course becomes CAUTION from GREEN, by request, marshal or fault; the lamps are as they were. -/
def State.toCaution (s : State) (cause : CourseCause) : State :=
  s.changeCourse .caution s.course.lampCount s.course.nextLamp cause

/-- The course becomes STOP: lamp count 0 and next lamp time absent (R118, R121). -/
def State.toStop (s : State) (cause : CourseCause) : State := s.changeCourse .stop 0 none cause

/-- A fault report: CAUTION when auto-caution is ON and the course GREEN (R122). -/
def State.faultReport (s : State) (w : SwitchId) : State :=
  if s.course.settings.autoCaution && s.course.course == .green then s.toCaution (.auto w) else s

/-! ## Handset records (02) -/

/-- The record in use that holds an identity (R22). -/
def State.handsetOf (s : State) (identity : Ident) : Option HandsetId :=
  firstIdx 24 fun h => (s.handsets.records[h]).any (·.identity == identity)

/-- Rewrite a record in use; a free record stays free. -/
def State.modHandset (s : State) (h : HandsetId) (f : Handset → Handset) : State :=
  { s with handsets := { s.handsets with records := modAt s.handsets.records h (Option.map f) } }

/-- Free a record: every field takes its free value, and the full-alert flag is ARMED (R33). -/
def State.freeHandset (s : State) (h : HandsetId) : State :=
  { s with handsets := { records := modAt s.handsets.records h fun _ => none, fullAlert := .armed } }

/-- Free a record that is LOST, unbound and not a marshal's (R20, R33). -/
def State.freeIfForsaken (s : State) (h : HandsetId) : State :=
  if (s.handsets.records[h]).any (fun r => r.link == .lost && r.boundCar.isNone && !r.marshal)
  then s.freeHandset h else s

/-! ## Bindings (03) -/

/-- The car whose binding record holds an identity. -/
def State.carOf (s : State) (identity : Ident) : Option CarId :=
  firstIdx 16 fun c => (s.binding.bindings[c].held).any (·.identity == identity)

/-- The marshal entry that holds an identity. -/
def State.marshalOf (s : State) (identity : Ident) : Option MarshalId :=
  firstIdx 4 fun m => s.binding.marshals[m].identity == some identity

/-- A car's lane intent becomes absent (R84). -/
def State.clearIntent (s : State) (c : CarId) : State :=
  { s with lane := { s.lane with intents := modAt s.lane.intents c fun _ => none } }

/-- A change of a binding record: the revision moves by one, the mark becomes DIRTY (R41), and a BINDING notice is
offered to race control (R42). -/
def State.changeBinding (s : State) (c : CarId) (f : Binding → Binding) : State :=
  let s := { s with binding := { s.binding with bindings := modAt s.binding.bindings c fun b =>
    { f b with revision := b.revision + 1, mark := .dirty } } }
  s.offerRaceControl (.binding c s.binding.bindings[c].held s.binding.bindings[c].revision)

/-- The record of an identity that is taken from its car loses its bound car, and is freed if LOST (R45). -/
def State.unbindHandset (s : State) (identity : Ident) : State :=
  match s.handsetOf identity with
  | some h => (s.modHandset h fun r => { r with boundCar := none }).freeIfForsaken h
  | none => s

/-- The record of an identity given to a car names that car (R45). -/
def State.bindHandset (s : State) (identity : Ident) (c : CarId) : State :=
  match s.handsetOf identity with
  | some h => s.modHandset h fun r => { r with boundCar := some c }
  | none => s

/-- A change of a car's identity is carried to the handset records and to the car's intent; a change that keeps the
identity touches neither (R45). -/
def State.carryIdentity (s : State) (c : CarId) (old new : Option Ident) : State :=
  if old = new then s
  else
    let s := old.elim s s.unbindHandset
    let s := new.elim s (s.bindHandset · c)
    s.clearIntent c

/-- Give a binding record an identity or take it away, as one change carried to its neighbours (R41, R45); f sets the
ceiling and the permit where the event sets them. -/
def State.rebind (s : State) (c : CarId) (held : Option Held) (f : Binding → Binding) : State :=
  (s.carryIdentity c (s.binding.bindings[c].held.map (·.identity)) (held.map (·.identity))).changeBinding c
    fun b => { f b with held := held }

/-- The state of a car that takes an identity: BOUND if the handset is LIVE, else RESERVED (R54, R58). -/
def State.heldStateFor (s : State) (identity : Ident) : HeldState :=
  match s.handsetOf identity with
  | some h => if (s.handsets.records[h]).any (·.link == .live) then .bound else .reserved
  | none => .reserved

/-- The state of a held binding moves; a VACANT record, or one in that state already, is not changed (R41, R43, R44). -/
def State.moveBinding (s : State) (c : CarId) (source : HeldState → Bool) (target : HeldState) : State :=
  match s.binding.bindings[c].held with
  | some held =>
    if source held.state then s.changeBinding c fun b => { b with held := some { held with state := target } }
    else s
  | none => s

/-! ## Car moves (04) -/

/-- The stall deadline of a car in zone z since a stamp: absent when the stall time is 0 (R75). -/
def State.stallDeadline (s : State) (z : ZoneId) (stamp : Time) : Option Time :=
  let t := s.geo.zones[z].stallTime
  if t = 0 then none else some (addMs stamp t.toNat)

/-- One move of a car: it leaves the list its record names, joins the tail of zone z's list, and its record becomes
TRACKED there, with the stall deadline of z (R65, R70, R75, R77, R78). -/
def State.moveCar (s : State) (c : CarId) (z : ZoneId) (stamp : Time) (way : Way) : State :=
  let left := match s.tracker.cars[c].placed with
    | some pl => modAt s.tracker.lists pl.zone (·.filter (·.car != c))
    | none => s.tracker.lists
  { s with tracker :=
      { lists := modAt left z (· ++ [⟨c, stamp, way⟩])
        cars := modAt s.tracker.cars c fun r =>
          { r with placed := some ⟨z, stamp, way, false⟩, stallDeadline := s.stallDeadline z stamp } } }

/-! ## Switches (05) -/

/-- The run state a mode stands for (5.2). -/
def SwitchMode.runState : SwitchMode → RunState
  | .ready => .ready
  | .pending _ _ => .pending
  | .set _ _ => .set
  | .restoring _ => .restoring
  | .faulted => .faulted
  | .disabled => .disabled

/-- The deadline, present in PENDING, SET and RESTORING (R85). -/
def SwitchMode.deadline : SwitchMode → Option Time
  | .pending d _ | .set d _ | .restoring d => some d
  | .ready | .faulted | .disabled => none

/-- The claim, present in PENDING and SET (R95). -/
def SwitchMode.claim : SwitchMode → Option Claim
  | .pending _ cl | .set _ cl => some cl
  | .ready | .restoring _ | .faulted | .disabled => none

/-- PENDING, SET or RESTORING: the switch is in motion (R86). -/
def SwitchMode.inMotion : SwitchMode → Bool
  | .pending _ _ | .set _ _ | .restoring _ => true
  | .ready | .faulted | .disabled => false

/-- The mode with its claim rewritten, if it holds one. -/
def SwitchMode.mapClaim (f : Claim → Claim) : SwitchMode → SwitchMode
  | .pending d cl => .pending d (f cl)
  | .set d cl => .set d (f cl)
  | .restoring d => .restoring d
  | .ready => .ready
  | .faulted => .faulted
  | .disabled => .disabled

/-- What the Lane Arbiter holds for switch w. -/
def State.switch (s : State) (w : SwitchId) : SwitchState := s.lane.switches[w]

/-- The owning station of switch w. -/
def State.switchOwner (s : State) (w : SwitchId) : PortId := s.geo.switches[w].owner

/-- Rewrite what the Lane Arbiter holds for one switch. -/
def State.modSwitch (s : State) (w : SwitchId) (f : SwitchState → SwitchState) : State :=
  { s with lane := { s.lane with switches := modAt s.lane.switches w f } }

/-- Put a switch into a run state with its deadline and claim, and set its position. -/
def State.setSwitch (s : State) (w : SwitchId) (mode : SwitchMode) (position : Position) : State :=
  s.modSwitch w fun sw => { sw with mode := mode, position := position }

/-- Every BUSY cap that names switch w ends (R108). -/
def State.endBusyCaps (s : State) (w : SwitchId) : State :=
  let caps := mapAll s.lane.busyCaps fun _ cap => if cap.any (·.switch == w) then none else cap
  { s with lane := { s.lane with busyCaps := caps } }

/-- A switch enters READY, FAULTED or DISABLED: no deadline and no claim is left, and its BUSY caps end (R85, R108). -/
def State.restSwitch (s : State) (w : SwitchId) (mode : SwitchMode) (position : Position) : State :=
  (s.setSwitch w mode position).endBusyCaps w

/-- The CLAIM_CLOSED notice (R97). -/
def State.announceClosed (s : State) (w : SwitchId) (cl : Claim) (outcome : FinalOutcome) : State :=
  s.offerWithRaceControl (s.switchOwner w) (.claimClosed w cl.car outcome cl.grantStamp)

/-- The SWITCH_FAULT alert of an entry into FAULTED and, with position THROWN or UNKNOWN, the fault report (R105). -/
def State.announceFault (s : State) (w : SwitchId) (cause : FaultCause) (left : RunState) : State :=
  let position := (s.switch w).position
  let s := s.offerWithRaceControl (s.switchOwner w) (.switchFault w cause left position)
  if position = .normal then s else s.faultReport w

/-- The undo move: made only while the car's record still shows the grant (R78). -/
def State.undoGrant (s : State) (w : SwitchId) (cl : Claim) : State :=
  match s.tracker.cars[cl.car].placed with
  | some pl =>
    if pl.zone = s.geo.switches[w].targetZone ∧ pl.way = .switch ∧ pl.entryStamp = cl.grantStamp
    then s.moveCar cl.car cl.priorZone cl.priorStamp .sensor else s
  | none => s

/-- A granted passage ends in PENDING: the switch comes to rest, the undo is asked, the claim closes, and then the
closing is announced (R97, R100, R101, R102). -/
def State.closePending (s : State) (w : SwitchId) (cl : Claim) (mode : SwitchMode) (position : Position)
    (outcome : FinalOutcome) : State :=
  ((s.restSwitch w mode position).undoGrant w cl).announceClosed w cl outcome

/-- A passage ends in SET: the switch comes to rest, and the claim closes with its outcome as recorded (R97). -/
def State.closeSet (s : State) (w : SwitchId) (cl : Claim) (mode : SwitchMode) (position : Position) : State :=
  (s.restSwitch w mode position).announceClosed w cl (.recorded cl.outcome)

/-- A RESTORE directive is offered for a switch whose claim closes: RESTORING if it is queued, FAULTED with position
THROWN if the owner's queue is full (R103, R110). The claim notice stands before the alert (log 13). -/
def State.restoreSwitch (s : State) (w : SwitchId) (cl : Claim) : State :=
  if s.queueFull (s.switchOwner w) then
    (s.closeSet w cl .faulted .thrown).announceFault w .restoreQueue (s.switch w).mode.runState
  else
    ((s.offerTo (s.switchOwner w) (.restoreSwitch w)).setSwitch w
      (.restoring (addMs s.now s.geo.switches[w].actuationTime.toNat)) (s.switch w).position).announceClosed w cl
        (.recorded cl.outcome)

end Sys2Proof.Machine
end

