-- ==== Sys2Proof/Machine/Operands.lean ====
section
/-! DEFINITION. The byte forms: enumerations, notice entries, replies, staged records and request codes (10). -/

namespace Sys2Proof.Machine

/-! ## Values as bytes (10.3) -/

/-- NO/YES, OFF/ON, CLOSED/OPEN (Table 10-5). -/
def flagByte (b : Bool) : Byte := if b then 1 else 0

/-- A number in one byte. -/
def natByte (n : Nat) : Byte := BitVec.ofNat 8 n

/-- An index in one byte. -/
def idxByte {n : Nat} (i : Fin n) : Byte := natByte i.val

/-- A number that the manual counts from 1: car, marshal entry or row. -/
def numByte {n : Nat} (i : Fin n) : Byte := natByte (i.val + 1)

/-- A single-byte field that may be absent: absent reads 0xFF. -/
def optByte {α : Type} (f : α → Byte) (o : Option α) : Byte := o.elim 0xFF f

/-- Two bytes, most significant first (R165). -/
def bytes2 (x : BitVec 16) : List Byte := [x.extractLsb' 8 8, x.extractLsb' 0 8]

/-- Four bytes, most significant first (R165). -/
def bytes4 (x : BitVec 32) : List Byte :=
  [x.extractLsb' 24 8, x.extractLsb' 16 8, x.extractLsb' 8 8, x.extractLsb' 0 8]

/-- An identity, 0x0000 when absent (10.3). -/
def identBytes (i : Option Ident) : List Byte := bytes2 (i.getD 0)

/-- A time that accompanies an absent field reads 0 (10.3). -/
def timeBytes (t : Option Time) : List Byte := bytes4 (t.getD 0)

def Phase.byte : Phase → Byte
  | .layout => 0 | .run => 1

def SwitchKind.byte : SwitchKind → Byte
  | .crossover => 0 | .pitEntry => 1 | .pitExit => 2

def Direction.byte : Direction → Byte
  | .inward => 0 | .outward => 1

def RunState.byte : RunState → Byte
  | .ready => 0 | .pending => 1 | .set => 2 | .restoring => 3 | .faulted => 4 | .disabled => 5

def Position.byte : Position → Byte
  | .normal => 0 | .thrown => 1 | .unknown => 2

/-- Binding states: VACANT is the absence of a held identity. -/
def bindingStateByte : Option Held → Byte
  | none => 0
  | some h => match h.state with
    | .reserved => 1 | .bound => 2 | .suspended => 3

def Source.byte : Source → Byte
  | .paired => 0 | .manual => 1 | .restored => 2

def Permit.byte : Permit → Byte
  | .allowed => 0 | .barred => 1

def Mark.byte : Mark → Byte
  | .clean => 0 | .dirty => 1

def LinkState.byte : LinkState → Byte
  | .acquiring => 0 | .live => 1 | .stale => 2 | .lost => 3

def Way.byte : Way → Byte
  | .sensor => 0 | .switch => 1

def Course.byte : Course → Byte
  | .stop => 0 | .countdown => 1 | .green => 2 | .caution => 3

/-- The button codes of Table 2-6. -/
def LaneCode.byte : LaneCode → Byte
  | .shiftIn => 1 | .shiftOut => 2 | .pit => 3

def DecisionReason.byte : DecisionReason → Byte
  | .course => 1 | .barred => 2 | .busy => 3 | .faulted => 4 | .disabled => 5 | .locked => 6
  | .pitClosed => 7 | .blocked => 8 | .guardTime => 9 | .full => 10 | .approach => 11 | .queue => 12
  | .wait => 13

/-- A decision result and its reason, 0 none (Table 10-5). -/
def Decision.bytes : Decision → List Byte
  | .grant => [0, 0]
  | .deny r => [1, r.byte]
  | .hold r => [2, r.byte]

def ClaimOutcome.byte : ClaimOutcome → Byte
  | .opened => 0 | .taken => 1 | .missed => 2

def FinalOutcome.byte : FinalOutcome → Byte
  | .recorded o => o.byte | .lapsed => 3 | .aborted => 4

def FaultCause.byte : FaultCause → Byte
  | .jammed => 0 | .actuation => 1 | .restoreQueue => 2

def PairResult.byte : PairResult → Byte
  | .ok => 0 | .same => 1 | .closed => 2 | .weak => 3 | .noCar => 4

def MarshalResult.byte : MarshalResult → Byte
  | .applied => 0 | .noEffect => 1 | .notLive => 2

/-- A switch request by its request code (Table 10-3). -/
def SwitchRequest.byte : SwitchRequest → Byte
  | .disable => 0x38 | .enable => 0x39 | .clear => 0x3A

def StoreOutcome.byte : StoreOutcome → Byte
  | .clean => 0 | .dirty => 1 | .cut => 2

/-- A car-or-marshal byte: the car 1..16, or 0x80 + m (R167). -/
def Holder.byte : Holder → Byte
  | .car c => numByte c
  | .marshal m => 0x80 + numByte m

/-- The cause and the two cause data bytes of a COURSE notice (Table 10-6). -/
def CourseCause.bytes : CourseCause → List Byte
  | .request p => [0, 0, idxByte p]
  | .marshal i => 1 :: bytes2 i
  | .auto w => [2, 0, idxByte w]
  | .countdownEnd => [3, 0, 0]

/-! ## Notice entries (R167, Table 10-6) -/

/-- The kind byte. -/
def NoticeBody.kind : NoticeBody → Byte
  | .throwSwitch _ _ => 0x01
  | .restoreSwitch _ => 0x02
  | .course _ _ _ _ => 0x10
  | .layout _ => 0x11
  | .switchFault _ _ _ _ => 0x12
  | .stall _ _ _ => 0x13
  | .trackClear _ _ => 0x14
  | .handsetTableFull _ => 0x15
  | .linkErrors _ _ => 0x16
  | .storeRowLost _ => 0x17
  | .restoreDuplicate _ _ _ => 0x18
  | .decision _ _ _ => 0x20
  | .claimClosed _ _ _ _ => 0x21
  | .missed _ _ _ => 0x22
  | .conflict _ _ _ => 0x23
  | .lateCrossing _ _ _ _ => 0x24
  | .jump _ _ _ _ => 0x25
  | .binding _ _ _ => 0x26
  | .pairResult _ _ _ => 0x27
  | .pairing _ => 0x28
  | .handsetState _ _ _ => 0x29
  | .battery _ _ _ => 0x2A
  | .marshalList _ _ _ => 0x2B
  | .marshalAction _ _ _ => 0x2C
  | .pit _ => 0x2D
  | .zoneLock _ _ => 0x2E
  | .switchState _ _ _ _ => 0x2F
  | .settings _ => 0x30
  | .storeDone _ _ => 0x31

/-- The payload, 0 to 6 bytes. -/
def NoticeBody.payload : NoticeBody → List Byte
  | .throwSwitch w c => [idxByte w, numByte c]
  | .restoreSwitch w => [idxByte w]
  | .course new old lamps cause => [new.byte, old.byte, natByte lamps] ++ cause.bytes
  | .layout phase => [phase.byte]
  | .switchFault w cause left position => [idxByte w, cause.byte, left.byte, position.byte]
  | .stall c z t => [numByte c, idxByte z] ++ bytes2 t
  | .trackClear restoring faulted => [natByte restoring, natByte faulted]
  | .handsetTableFull i => bytes2 i
  | .linkErrors p count => [idxByte p, natByte count]
  | .storeRowLost r => [numByte r]
  | .restoreDuplicate r i holder => [numByte r] ++ bytes2 i ++ [holder.byte]
  | .decision w c result => [idxByte w, numByte c] ++ result.bytes
  | .claimClosed w c outcome stamp => [idxByte w, numByte c, outcome.byte] ++ bytes2 (stamp.setWidth 16)
  | .missed w c n => [idxByte w, numByte c, idxByte n]
  | .conflict c z other => [numByte c, idxByte z, numByte other]
  | .lateCrossing c n p interval =>
    [numByte c, idxByte n, idxByte p] ++ bytes2 (BitVec.ofNat 16 interval)
  | .jump c n lamps stamp => [numByte c, idxByte n, natByte lamps] ++ bytes2 (stamp.setWidth 16)
  | .binding c held revision =>
    [numByte c, bindingStateByte held] ++ identBytes (held.map (·.identity)) ++
      [optByte (·.source.byte) held, revision]
  | .pairResult i result c => bytes2 i ++ [result.byte, optByte numByte c]
  | .pairing seconds => [flagByte seconds.isSome, seconds.getD 0]
  | .handsetState i link holder => bytes2 i ++ [link.byte, holder.byte]
  | .battery i low c => bytes2 i ++ [flagByte low, optByte numByte c]
  | .marshalList m i revision => [numByte m] ++ identBytes i ++ [revision]
  | .marshalAction i code result => bytes2 i ++ [code.byte, result.byte]
  | .pit opened => [flagByte opened]
  | .zoneLock z locked => [idxByte z, flagByte locked]
  | .switchState w request rs position => [idxByte w, request.byte, rs.byte, position.byte]
  | .settings revision => [revision]
  | .storeDone r outcome => [numByte r, outcome.byte]

def NoticeClass.byte : NoticeClass → Byte
  | .directive => 1 | .alert => 2 | .info => 3

/-- A notice entry as a TAKE reply carries it (R167). -/
def Notice.entry (n : Notice) : List Byte :=
  [n.body.kind, n.body.cls.byte] ++ bytes2 n.stamp ++ [natByte n.body.payload.length] ++ n.body.payload

/-- The IDLE notice of an empty queue (R160, R167). -/
def idleEntry : List Byte := [0, 0, 0, 0, 0]

/-! ## Replies (Tables 9-1 and 10-2) -/

/-- The payload of a REFUSED reply. -/
def Reason.payload : Reason → List Byte
  | .notPermitted => [0x01]
  | .phase => [0x02]
  | .state => [0x03]
  | .range field => [0x04, field]
  | .inUse => [0x05]
  | .marshal => [0x06]
  | .staleRecord => [0x07]
  | .readOnly => [0x08]
  | .notOwner => [0x09]
  | .unknownRequest => [0x0A]
  | .storeBusy => [0x0B]
  | .storeProtected => [0x0C]
  | .noStaging => [0x0D]
  | .starting => [0x0E]
  | .layoutFault table index => [0x0F, table, index]

/-- The reply code. -/
def Reply.code : Reply → Byte
  | .idle => 0 | .done _ => 1 | .refused _ => 2 | .checkError => 3 | .frameError => 4

/-- The reply payload. -/
def Reply.payload : Reply → List Byte
  | .done payload => payload
  | .refused r => r.payload
  | .idle | .checkError | .frameError => []

/-! ## Tables and records (Table 9-3, R166) -/

/-- An index given in one byte, within a range. -/
def finOf (n : Nat) (b : Byte) : Option (Fin n) :=
  if h : b.toNat < n then some ⟨b.toNat, h⟩ else none

/-- A number counted from 1 given in one byte, within a range: car, marshal entry or row. -/
def numOf (n : Nat) (b : Byte) : Option (Fin n) :=
  if h : 1 ≤ b.toNat ∧ b.toNat - 1 < n then some ⟨b.toNat - 1, h.2⟩ else none

/-- The record that a SELECT names, or the place of the offending value: 1 the table, 2 the index (R154, R155). -/
def recordRefOf (table index : Byte) : Except Byte RecordRef :=
  let found (r : Option RecordRef) : Except Byte RecordRef := r.elim (.error 2) .ok
  if table = 0 then found ((finOf 64 index).map .zone)
  else if table = 1 then found ((finOf 32 index).map .switch)
  else if table = 2 then found ((finOf 128 index).map .sensor)
  else if table = 3 then found ((numOf 16 index).map .binding)
  else if table = 4 then found ((numOf 4 index).map .marshal)
  else if table = 5 then found (if index = 0 then some .settings else none)
  else if table = 6 then found ((finOf 24 index).map .handset)
  else if table = 7 then found ((numOf 16 index).map .car)
  else .error 1

/-- The table code (Table 10-5). -/
def RecordRef.table : RecordRef → Byte
  | .zone _ => 0 | .switch _ => 1 | .sensor _ => 2 | .binding _ => 3 | .marshal _ => 4 | .settings => 5
  | .handset _ => 6 | .car _ => 7

/-- The index byte. -/
def RecordRef.index : RecordRef → Byte
  | .zone z => idxByte z
  | .switch w => idxByte w
  | .sensor n => idxByte n
  | .binding c => numByte c
  | .marshal m => numByte m
  | .settings => 0
  | .handset h => idxByte h
  | .car c => numByte c

/-- The next record in index order, from the top of the table's range back to its bottom (R156). -/
def RecordRef.next : RecordRef → RecordRef
  | .zone z => .zone (z + 1)
  | .switch w => .switch (w + 1)
  | .sensor n => .sensor (n + 1)
  | .binding c => .binding (c + 1)
  | .marshal m => .marshal (m + 1)
  | .settings => .settings
  | .handset h => .handset (h + 1)
  | .car c => .car (c + 1)

/-- The HANDSET and CAR tables are read only (Table 9-3). -/
def RecordRef.readOnly : RecordRef → Bool
  | .handset _ | .car _ => true
  | .zone _ | .switch _ | .sensor _ | .binding _ | .marshal _ | .settings => false

/-- The three geometry tables, written in LAYOUT only (R9). -/
def RecordRef.isGeometry : RecordRef → Bool
  | .zone _ | .switch _ | .sensor _ => true
  | .binding _ | .marshal _ | .settings | .handset _ | .car _ => false

/-- The sizes in bytes of the writable fields, in field-number order (R166). -/
def RecordRef.fieldSizes : RecordRef → List Nat
  | .zone _ => [1, 1, 1, 2, 2]
  | .switch _ => [1, 1, 1, 1, 1, 1, 1, 2, 2, 2]
  | .sensor _ => [1, 1, 1, 1, 1]
  | .binding _ => [2, 1, 1]
  | .marshal _ => [2]
  | .settings => [1, 1, 2, 1, 1, 2, 1, 1, 1]
  | .handset _ | .car _ => []

/-! ### Record images: the writable fields in field-number order, then the read-only fields (R166) -/

def Zone.image (z : Zone) : List Byte :=
  [flagByte z.defined, z.lane, z.capacity] ++ bytes2 z.guardTime ++ bytes2 z.stallTime ++ [z.revision]

/-- The run state and position are the Lane Arbiter's, returned with the record (R5, R10). -/
def Switch.image (w : Switch) (runState : RunState) (position : Position) : List Byte :=
  [flagByte w.defined, w.kind.byte, idxByte w.owner, w.direction.byte, idxByte w.entryZone,
    idxByte w.targetZone, optByte idxByte w.watchZone] ++ bytes2 w.watchTime ++ bytes2 w.actuationTime ++
    bytes2 w.holdLimit ++ [runState.byte, position.byte, w.revision]

/-- The kind, the zone entered and the switch of a sensor (R7). -/
def SensorKind.image : SensorKind → List Byte
  | .boundary z => [0, idxByte z, 0xFF]
  | .entry z w => [1, idxByte z, idxByte w]
  | .pairing => [2, 0xFF, 0xFF]

def Sensor.image (n : Sensor) : List Byte :=
  [flagByte n.defined] ++ n.kind.image ++ [idxByte n.owner, n.revision]

def Binding.image (b : Binding) : List Byte :=
  identBytes (b.held.map (·.identity)) ++ [b.ceiling.setWidth 8, b.permit.byte, bindingStateByte b.held,
    optByte (·.source.byte) b.held, b.revision, b.mark.byte]

def MarshalEntry.image (m : MarshalEntry) : List Byte := identBytes m.identity ++ [m.revision, m.mark.byte]

def Settings.image (x : Settings) : List Byte :=
  [x.cautionCap.setWidth 8, x.pitLimit.setWidth 8] ++ bytes2 x.intentLife ++
    [x.pairingFloor.setWidth 8, x.conflictCap.setWidth 8] ++ bytes2 x.conflictHold ++
    [x.busyCap.setWidth 8, flagByte x.autoCaution, flagByte x.autoSave, x.revision]

/-- A handset record; a free one shows in use NO and the free values (Table 2-1, R38). -/
def handsetImage : Option Handset → List Byte
  | none => [0] ++ identBytes none ++ [LinkState.acquiring.byte, 0, 0, 0, 0, 0, 0, 0, 0xFF, 0, 0, 0] ++
      bytes4 0 ++ bytes4 0
  | some r => [1] ++ bytes2 r.identity ++ [r.link.byte, r.lastCount.setWidth 8, r.throttle.setWidth 8,
      r.heldCode.setWidth 8, r.candidateCode.setWidth 8, idxByte r.heardStation, flagByte r.batteryLow,
      r.lastStrength.setWidth 8, optByte numByte r.boundCar, flagByte r.marshal, natByte r.duplicateCount,
      natByte r.lateCount] ++ bytes4 r.reportStamp ++ bytes4 r.stateStamp

/-- UNKNOWN, TRACKED or STALLED. -/
def positionStateByte : Option Placed → Byte
  | none => 0
  | some pl => if pl.stalled then 2 else 1

/-- The place of a car in a list, counted from 1 at the head. -/
def placeIn {α : Type} (l : List α) (p : α → Bool) : Option Nat := (l.findIdx? p).map (· + 1)

/-- The switches whose claim names a car, switch w as bit w (R111, R166). -/
def State.claimBits (s : State) (c : CarId) : BitVec 32 :=
  (List.finRange 32).foldl (fun acc w =>
    if ((s.switch w).mode.claim).any (·.car == c) then acc ||| BitVec.twoPow 32 w.val else acc) 0

/-- The PIT_HOLD fields: switch, reason and place in the hold list (Table 5-8). -/
def State.pitHoldBytes (s : State) (c : CarId) : List Byte :=
  match s.lane.pitHolds[c] with
  | none => [0xFF, 0xFF, 0xFF]
  | some w => [idxByte w, optByte (·.reason.byte) ((s.switch w).holds.find? (·.car == c)),
      optByte natByte (placeIn (s.switch w).holds (·.car == c))]

/-- A CAR record: the position fields with the list place (R81), then the Lane Arbiter's fields (R111). -/
def State.carImage (s : State) (c : CarId) : List Byte :=
  let r := s.tracker.cars[c]
  let intent := s.lane.intents[c]
  let cap := s.lane.conflictCaps[c]
  let busy := s.lane.busyCaps[c]
  [positionStateByte r.placed, optByte (fun pl => idxByte pl.zone) r.placed] ++
    timeBytes (r.placed.map (·.entryStamp)) ++ [optByte (·.way.byte) r.placed, optByte idxByte r.lastSensor] ++
    bytes4 r.lastStamp ++
    [optByte natByte (r.placed.bind fun pl => placeIn s.tracker.lists[pl.zone] (·.car == c)),
      optByte (·.code.byte) intent] ++ timeBytes (intent.map (·.expiry)) ++
    [optByte (·.value.setWidth 8) cap] ++ timeBytes (cap.map (·.ends)) ++
    [optByte (·.value.setWidth 8) busy, optByte (idxByte ·.switch) busy] ++ s.pitHoldBytes c ++
    bytes4 (s.claimBits c)

/-- The CAR record that SELECT loads: the reset values of Table 4-1, the rest absent (R81, R111). -/
def carDefaultImage : List Byte :=
  [0, 0xFF] ++ timeBytes none ++ [0xFF, 0xFF] ++ bytes4 0 ++ [0xFF, 0xFF] ++ timeBytes none ++ [0xFF] ++
    timeBytes none ++ [0xFF, 0xFF] ++ [0xFF, 0xFF, 0xFF] ++ bytes4 0

/-- The record as it stands (R156). -/
def State.recordImage (s : State) : RecordRef → List Byte
  | .zone z => s.geo.zones[z].image
  | .switch w => s.geo.switches[w].image (s.switch w).mode.runState (s.switch w).position
  | .sensor n => s.geo.sensors[n].image
  | .binding c => s.binding.bindings[c].image
  | .marshal m => s.binding.marshals[m].image
  | .settings => s.course.settings.image
  | .handset h => handsetImage s.handsets.records[h]
  | .car c => s.carImage c

/-- The revision of a record, where its table carries one (Table 9-3). -/
def State.revisionOf (s : State) : RecordRef → Option Byte
  | .zone z => some s.geo.zones[z].revision
  | .switch w => some s.geo.switches[w].revision
  | .sensor n => some s.geo.sensors[n].revision
  | .binding c => some s.binding.bindings[c].revision
  | .marshal m => some s.binding.marshals[m].revision
  | .settings => some s.course.settings.revision
  | .handset _ => none
  | .car _ => none

/-- The default record that SELECT loads (R1, R3, R6, R38, R56, R60, R81, R128). -/
def RecordRef.defaultImage : RecordRef → List Byte
  | .zone _ => { Zone.reset with defined := true }.image
  | .switch _ => { Switch.reset with defined := true }.image .ready .normal
  | .sensor _ => { Sensor.reset with defined := true }.image
  | .binding _ => Binding.reset.image
  | .marshal _ => MarshalEntry.reset.image
  | .settings => Settings.reset.image
  | .handset _ => handsetImage none
  | .car _ => carDefaultImage

/-! ### Reading a staged image back: the first offending field in field-number order (R9, R57, R128, R166) -/

/-- The byte at a place of the image. -/
def byteAt (image : List Byte) (k : Nat) : Byte := image.getD k 0

/-- The two-byte value at a place of the image. -/
def wordAt (image : List Byte) (k : Nat) : BitVec 16 := byteAt image k ++ byteAt image (k + 1)

/-- A value that must meet a test, else RANGE with the field number. -/
def checked {α : Type} (field : Byte) (ok : Bool) (a : α) : Except Byte α :=
  if ok then .ok a else .error field

def checkFlag (field b : Byte) : Except Byte Bool := checked field (b.toNat < 2) (b == 1)

def checkFin (n : Nat) (field b : Byte) : Except Byte (Fin n) :=
  (finOf n b).elim (.error field) .ok

/-- A field that may be absent, 0xFF (R166). -/
def checkOptFin (n : Nat) (field b : Byte) : Except Byte (Option (Fin n)) :=
  if b = 0xFF then .ok none else (checkFin n field b).map some

def inRange {n : Nat} (lo hi : Nat) (x : BitVec n) : Bool := lo ≤ x.toNat && x.toNat ≤ hi

/-- An identity of 0x0000 or 0xFFFF is taken as absent (R166). -/
def identOf (x : BitVec 16) : Option Ident := if x = 0 ∨ x = 0xFFFF then none else some x

def SwitchKind.ofFin (k : Fin 3) : SwitchKind :=
  if k = 0 then .crossover else if k = 1 then .pitEntry else .pitExit

/-- Table 1-1; revision is the record's new revision. -/
def parseZone (im : List Byte) (revision : Byte) : Except Byte Zone := do
  let defined ← checkFlag 1 (byteAt im 0)
  let lane ← checked 2 (inRange 0 4 (byteAt im 1)) (byteAt im 1)
  let capacity ← checked 3 (inRange 1 8 (byteAt im 2)) (byteAt im 2)
  let guardTime ← checked 4 (inRange 0 1000 (wordAt im 3)) (wordAt im 3)
  let stallTime ← checked 5 (wordAt im 5 == 0 || inRange 100 60000 (wordAt im 5)) (wordAt im 5)
  return Zone.mk defined lane capacity guardTime stallTime revision

/-- Table 1-2. -/
def parseSwitch (im : List Byte) (revision : Byte) : Except Byte Switch := do
  let defined ← checkFlag 1 (byteAt im 0)
  let kind ← checkFin 3 2 (byteAt im 1)
  let owner ← checkFin 4 3 (byteAt im 2)
  let outward ← checkFlag 4 (byteAt im 3)
  let entryZone ← checkFin 64 5 (byteAt im 4)
  let targetZone ← checkFin 64 6 (byteAt im 5)
  let watchZone ← checkOptFin 64 7 (byteAt im 6)
  let watchTime ← checked 8 (inRange 0 5000 (wordAt im 7)) (wordAt im 7)
  let actuationTime ← checked 9 (inRange 20 500 (wordAt im 9)) (wordAt im 9)
  let holdLimit ← checked 10 (inRange 200 5000 (wordAt im 11)) (wordAt im 11)
  return Switch.mk defined (SwitchKind.ofFin kind) owner (if outward then .outward else .inward) entryZone
    targetZone watchZone watchTime actuationTime holdLimit revision

/-- A sensor's kind from its three fields: BOUNDARY and ENTRY need the zone entered, ENTRY the switch, and a field the
kind does not use is dropped (R7). -/
def sensorKindOf (kind : Fin 3) (zone : Option ZoneId) (switch : Option SwitchId) : Except Byte SensorKind :=
  if kind = 2 then .ok .pairing
  else match zone with
    | none => .error 3
    | some z =>
      if kind = 0 then .ok (.boundary z)
      else match switch with
        | none => .error 4
        | some w => .ok (.entry z w)

/-- Table 1-4. The range of each field comes before the next field; an absent zone offends as field 3 and an absent
switch as field 4, before the owner's range (R9). -/
def parseSensor (im : List Byte) (revision : Byte) : Except Byte Sensor := do
  let defined ← checkFlag 1 (byteAt im 0)
  let kind ← checkFin 3 2 (byteAt im 1)
  let zone ← checkOptFin 64 3 (byteAt im 2)
  let _ ← checked 3 (kind == 2 || zone.isSome) ()
  let switch ← checkOptFin 32 4 (byteAt im 3)
  let kind ← sensorKindOf kind zone switch
  let owner ← checkFin 4 5 (byteAt im 4)
  return Sensor.mk defined kind owner revision

/-- The writable fields of a binding record (Table 3-1). -/
structure BindingFields where
  identity : Option Ident
  ceiling : BitVec 6
  permit : Permit
  deriving DecidableEq, Repr

/-- R57: RANGE for the ceiling (2) and the permit (3); every identity value is one. -/
def parseBinding (im : List Byte) : Except Byte BindingFields := do
  let ceiling ← checked 2 (inRange 0 63 (byteAt im 2)) ((byteAt im 2).setWidth 6)
  let barred ← checkFlag 3 (byteAt im 3)
  return BindingFields.mk (identOf (wordAt im 0)) ceiling (if barred then .barred else .allowed)

/-- Table 6-5. -/
def parseSettings (im : List Byte) (revision : Byte) : Except Byte Settings := do
  let cautionCap ← checked 1 (inRange 0 63 (byteAt im 0)) ((byteAt im 0).setWidth 6)
  let pitLimit ← checked 2 (inRange 0 63 (byteAt im 1)) ((byteAt im 1).setWidth 6)
  let intentLife ← checked 3 (inRange 200 5000 (wordAt im 2)) (wordAt im 2)
  let pairingFloor ← checked 4 (inRange 0 15 (byteAt im 4)) ((byteAt im 4).setWidth 4)
  let conflictCap ← checked 5 (inRange 0 63 (byteAt im 5)) ((byteAt im 5).setWidth 6)
  let conflictHold ← checked 6 (inRange 100 3000 (wordAt im 6)) (wordAt im 6)
  let busyCap ← checked 7 (inRange 0 63 (byteAt im 8)) ((byteAt im 8).setWidth 6)
  let autoCaution ← checkFlag 8 (byteAt im 9)
  let autoSave ← checkFlag 9 (byteAt im 10)
  return Settings.mk cautionCap pitLimit intentLife pairingFloor conflictCap conflictHold busyCap autoCaution
    autoSave revision

/-! ### PUT (R157) -/

/-- What writing bytes into the fields from the field pointer comes to. -/
inductive PutResult where
  | upTo (field : Nat)
  | partWay (field : Nat)
  | overrun
  deriving DecidableEq, Repr

/-- Walk the field sizes from the pointer: the next pointer, the field the bytes end part way through, or an overrun. -/
def putWalk (sizes : List Nat) (field bytes : Nat) : PutResult :=
  match sizes with
  | [] => if bytes = 0 then .upTo field else .overrun
  | k :: rest =>
    if bytes = 0 then .upTo field
    else if bytes < k then .partWay field
    else putWalk rest (field + 1) (bytes - k)

/-- The image with bytes written from an offset on. -/
def overwrite (image : List Byte) (offset : Nat) (values : List Byte) : List Byte :=
  image.take offset ++ values ++ image.drop (offset + values.length)

/-- The offset in the image of the field with a number counted from 1. -/
def fieldOffset (sizes : List Nat) (field : Nat) : Nat := (sizes.take (field - 1)).sum

/-! ## Requests (Table 10-3) -/

/-- The requests a code names. -/
inductive RequestName where
  | poll | take | portStatus | portSet | portReset | select | fetch | put | apply | reportHandset
  | reportCrossing | reportSwitch | start | stop | caution | green | pitOpen | pitClose | zoneLock
  | trackClear | switchDisable | switchEnable | switchClear | layoutRun | layoutEdit | openPairing
  | closePairing | release | storeSave
  deriving DecidableEq, Repr

/-- The request a code names, with its least and greatest payload length. -/
def requestTable : List (Byte × RequestName × Nat × Nat) :=
  [(0x01, .poll, 0, 0), (0x02, .take, 0, 0), (0x03, .portStatus, 0, 0), (0x04, .portSet, 2, 2),
   (0x05, .portReset, 0, 0), (0x10, .select, 2, 2), (0x11, .fetch, 0, 0), (0x12, .put, 1, 16),
   (0x13, .apply, 0, 0), (0x20, .reportHandset, 7, 7), (0x21, .reportCrossing, 3, 3),
   (0x22, .reportSwitch, 3, 3), (0x30, .start, 0, 0), (0x31, .stop, 0, 0), (0x32, .caution, 0, 0),
   (0x33, .green, 0, 0), (0x34, .pitOpen, 0, 0), (0x35, .pitClose, 0, 0), (0x36, .zoneLock, 2, 2),
   (0x37, .trackClear, 0, 0), (0x38, .switchDisable, 1, 1), (0x39, .switchEnable, 1, 1),
   (0x3A, .switchClear, 1, 1), (0x3B, .layoutRun, 0, 0), (0x3C, .layoutEdit, 0, 0),
   (0x40, .openPairing, 1, 1), (0x41, .closePairing, 0, 0), (0x42, .release, 1, 1),
   (0x43, .storeSave, 1, 1)]

/-- The row of a request code, if it names a request (test 4 of R153). -/
def requestRow (code : Byte) : Option (RequestName × Nat × Nat) :=
  (requestTable.find? (·.1 == code)).map (·.2)

end Sys2Proof.Machine
end

