-- ==== Sys2Proof/Machine/Lanes.lean ====
section
/-! DEFINITION. Lane Change Arbitration (05): decisions, grants, pit-exit holds, switch reports, deadlines, caps and
switch requests. -/

namespace Sys2Proof.Machine

/-! ## The decision checks (Table 5-3, R88) -/

/-- Check 5: the zone's list holds a STALLED car. -/
def State.holdsStalled (s : State) (z : ZoneId) : Bool :=
  s.tracker.lists[z].any fun o => (s.tracker.cars[o.car].placed).any (·.stalled)

/-- Check 6: the zone's list holds a car whose time since entry is less than the zone's guard time. -/
def State.nearStart (s : State) (z : ZoneId) : Bool :=
  s.tracker.lists[z].any fun o => since s.now o.entryStamp < s.geo.zones[z].guardTime.toNat

/-- Check 7: the zone's list holds as many cars as its capacity, or more. -/
def State.atCapacity (s : State) (z : ZoneId) : Bool :=
  s.geo.zones[z].capacity.toNat ≤ s.tracker.lists[z].length

/-- Check 8: the watch zone, if any, holds a car whose time since entry is at least the watch time. -/
def State.approached (s : State) (w : SwitchId) : Bool :=
  (s.geo.switches[w].watchZone).any fun z =>
    s.tracker.lists[z].any fun o => s.geo.switches[w].watchTime.toNat ≤ since s.now o.entryStamp

/-- The result of the first check that fails. -/
def firstFailing (checks : List (Bool × DecisionReason)) : Option DecisionReason :=
  (checks.find? (·.1)).map (·.2)

/-- The course is STOP or COUNTDOWN: check 1 fails (R88), and every car is braked (R137). -/
def State.courseHolds (s : State) : Bool := s.course.course == .stop || s.course.course == .countdown

/-- Check 3, by run state. -/
def State.runStateChecks (s : State) (w : SwitchId) : List (Bool × DecisionReason) :=
  [((s.switch w).mode.inMotion, .busy), ((s.switch w).mode == .faulted, .faulted),
    ((s.switch w).mode == .disabled, .disabled)]

/-- Checks 5 to 9. -/
def State.passageChecks (s : State) (w : SwitchId) : List (Bool × DecisionReason) :=
  let z := s.geo.switches[w].targetZone
  [(s.holdsStalled z, .blocked), (s.nearStart z, .guardTime), (s.atCapacity z, .full),
    (s.approached w, .approach), (s.queueFull (s.switchOwner w), .queue)]

/-- The checks at a CROSSOVER or PIT_ENTRY, in order (R87). -/
def State.laneChecks (s : State) (c : CarId) (w : SwitchId) : List (Bool × DecisionReason) :=
  let kind := s.geo.switches[w].kind
  [(s.courseHolds || (s.course.course == .caution && kind == .crossover), .course),
    (s.binding.bindings[c].permit == .barred, .barred)] ++ s.runStateChecks w ++
    [(s.course.locks[s.geo.switches[w].targetZone], .locked),
      (kind == .pitEntry && !s.course.pitOpen, .pitClosed)] ++ s.passageChecks w

/-- The checks at a PIT_EXIT with an empty hold list or at a recheck, in order (R90). -/
def State.exitChecks (s : State) (w : SwitchId) : List (Bool × DecisionReason) :=
  (s.courseHolds, .course) :: (s.runStateChecks w ++ s.passageChecks w)

/-! ## Grants, denials and holds -/

/-- The DECISION notice (R89). -/
def State.announceDecision (s : State) (w : SwitchId) (c : CarId) (result : Decision) : State :=
  s.offerWithRaceControl (s.switchOwner w) (.decision w c result)

/-- A GRANT (R93): the grant move, the claim, PENDING with its actuation deadline, the THROW, the intent consumed
except at a PIT_EXIT, the notice. A car without a zone is never decided (log 19); it is granted nothing. -/
def State.grant (s : State) (c : CarId) (w : SwitchId) : State :=
  match s.tracker.cars[c].placed with
  | none => s
  | some prior =>
    let sw := s.geo.switches[w]
    let claim : Claim :=
      { car := c, grantStamp := s.now, priorZone := prior.zone, priorStamp := prior.entryStamp, outcome := .opened }
    let s := s.moveCar c sw.targetZone s.now .switch
    let s := s.modSwitch w fun st => { st with mode := .pending (addMs s.now sw.actuationTime.toNat) claim }
    let s := s.offerTo sw.owner (.throwSwitch w c)
    let s := if sw.kind = .pitExit then s else s.clearIntent c
    s.announceDecision w c .grant

/-- A BUSY cap for switch w (R108). -/
def State.setBusyCap (s : State) (c : CarId) (w : SwitchId) : State :=
  let cap : BusyCap := { value := s.course.settings.busyCap, switch := w }
  { s with lane := { s.lane with busyCaps := modAt s.lane.busyCaps c fun _ => some cap } }

/-- A car's PIT_HOLD cap is set or removed. -/
def State.setPitHold (s : State) (c : CarId) (hold : Option SwitchId) : State :=
  { s with lane := { s.lane with pitHolds := modAt s.lane.pitHolds c fun _ => hold } }

/-- The decision at a CROSSOVER or PIT_ENTRY (R87): a grant, or a denial, with a BUSY cap for DENY BUSY. -/
def State.decidePassage (s : State) (c : CarId) (w : SwitchId) : State :=
  match firstFailing (s.laneChecks c w) with
  | none => s.grant c w
  | some reason =>
    (if reason = .busy then s.setBusyCap c w else s).announceDecision w c (.deny reason)

/-- A car joins the hold list with its PIT_HOLD cap; on an empty list the recheck time becomes now plus 20 ms
(R90, R91). -/
def State.holdCar (s : State) (c : CarId) (w : SwitchId) (reason : DecisionReason) : State :=
  let recheck := fun (st : SwitchState) => if st.holds.isEmpty then some (addMs s.now 20) else st.recheck
  let s := s.modSwitch w fun st => { st with holds := st.holds ++ [⟨c, reason⟩], recheck := recheck st }
  (s.setPitHold c (some w)).announceDecision w c (.hold reason)

/-- The decision at a PIT_EXIT: HOLD WAIT behind held cars, else the checks of R90. -/
def State.decideExit (s : State) (c : CarId) (w : SwitchId) : State :=
  if (s.switch w).holds.isEmpty then
    match firstFailing (s.exitChecks w) with
    | none => s.grant c w
    | some reason => s.holdCar c w reason
  else s.holdCar c w .wait

/-- Whether a car's intent asks for a switch of this kind and direction (Table 5-2). -/
def intentMatches (intent : Option Intent) (kind : SwitchKind) (direction : Direction) : Bool :=
  match kind, direction with
  | .crossover, .inward => intent.any (·.code == .shiftIn)
  | .crossover, .outward => intent.any (·.code == .shiftOut)
  | .pitEntry, _ => intent.any (·.code == .pit)
  | .pitExit, _ => true

/-- The decision at an entry sensor (R86): by kind and intent; an undecided car at a switch in motion receives a
BUSY cap. -/
def State.decideEntry (s : State) (c : CarId) (w : SwitchId) : State :=
  let sw := s.geo.switches[w]
  if sw.kind = .pitExit then s.decideExit c w
  else if intentMatches s.lane.intents[c] sw.kind sw.direction then s.decidePassage c w
  else if (s.switch w).mode.inMotion then s.setBusyCap c w
  else s

/-! ## Reconciliation and the ends of caps and holds (R92, R96, R108) -/

/-- The claim of one switch meets a placed crossing of its car: TAKEN on the target lane, else MISSED (R96). -/
def State.reconcileAt (c : CarId) (sensor : SensorId) (lane : Byte) (s : State) (w : SwitchId) : State :=
  match (s.switch w).mode.claim with
  | some cl =>
    if cl.car = c ∧ cl.outcome = .opened then
      let taken := s.geo.zones[s.geo.switches[w].targetZone].lane == lane
      let s := s.modSwitch w fun st => { st with mode := st.mode.mapClaim fun cl =>
        { cl with outcome := if taken then .taken else .missed } }
      if taken then s else s.offerWithRaceControl (s.switchOwner w) (.missed w c sensor)
    else s
  | none => s

/-- Every OPEN claim of the car is examined, switches in ascending order (R96; the order of the notices is log 12). -/
def State.reconcile (s : State) (c : CarId) (sensor : SensorId) (lane : Byte) : State :=
  (List.finRange 32).foldl (State.reconcileAt c sensor lane) s

/-- A car leaves a hold list with its PIT_HOLD cap removed; an emptied list has no recheck time (R91, R92). -/
def State.endHold (s : State) (c : CarId) (w : SwitchId) : State :=
  let s := s.modSwitch w fun st =>
    let holds := st.holds.filter (·.car != c)
    { st with holds := holds, recheck := if holds.isEmpty then none else st.recheck }
  s.setPitHold c none

/-- A car's next placed crossing ends its BUSY cap and its pit-exit hold (R71 step 2). -/
def State.endCapsByCrossing (s : State) (c : CarId) : State :=
  let s := { s with lane := { s.lane with busyCaps := modAt s.lane.busyCaps c fun _ => none } }
  match s.lane.pitHolds[c] with
  | some w => s.endHold c w
  | none => s

/-- A conflict finding sets the car's CONFLICT cap, with its notice (R107). -/
def State.setConflictCap (s : State) (c : CarId) (z : ZoneId) (other : CarId) : State :=
  let cap : ConflictCap :=
    { value := s.course.settings.conflictCap, ends := addMs s.now s.course.settings.conflictHold.toNat }
  let s := { s with lane := { s.lane with conflictCaps := modAt s.lane.conflictCaps c fun _ => some cap } }
  s.offerRaceControl (.conflict c z other)

/-- A lane edge sets the intent of the car that is BOUND to the identity (R83). -/
def State.laneEdge (s : State) (identity : Ident) (code : LaneCode) : State :=
  match s.carOf identity with
  | some c =>
    if (s.binding.bindings[c].held).any (·.state == .bound) then
      let intent : Intent := { code := code, expiry := addMs s.now s.course.settings.intentLife.toNat }
      { s with lane := { s.lane with intents := modAt s.lane.intents c fun _ => some intent } }
    else s
  | none => s

/-! ## Switch reports (5.7) -/

/-- THROWN (R99). -/
def State.takeThrown (s : State) (p : PortId) (w : SwitchId) : State :=
  match (s.switch w).mode with
  | .pending _ cl =>
    (s.setSwitch w (.set (addMs s.now s.geo.switches[w].holdLimit.toNat) cl) .thrown).done p []
  | .ready | .set _ _ | .restoring _ | .faulted | .disabled => s.refuse p .state

/-- RETURNED (R100). -/
def State.takeReturned (s : State) (p : PortId) (w : SwitchId) : State :=
  match (s.switch w).mode with
  | .pending _ cl => (s.closePending w cl .ready .normal .aborted).done p []
  | .set _ cl => (s.closeSet w cl .ready .normal).done p []
  | .restoring _ => (s.restSwitch w .ready .normal).done p []
  | .ready | .faulted | .disabled => s.refuse p .state

/-- JAMMED, taken in every run state (R101, R105). -/
def State.takeJammed (s : State) (p : PortId) (w : SwitchId) (position : Position) : State :=
  let rested := match (s.switch w).mode with
    | .pending _ cl => s.closePending w cl .faulted position .aborted
    | .set _ cl => s.closeSet w cl .faulted position
    | .ready | .restoring _ | .faulted | .disabled => s.restSwitch w .faulted position
  (rested.announceFault w .jammed (s.switch w).mode.runState).done p []

/-- The position byte of a JAMMED report: 0 NORMAL, 1 THROWN, 2 UNKNOWN (10.2). -/
def positionOf (b : Byte) : Option Position :=
  if b = 0 then some .normal else if b = 1 then some .thrown else if b = 2 then some .unknown else none

/-- A defined switch by its number (test 2 of R98 and R125). -/
def State.definedSwitch (s : State) (b : Byte) : Option SwitchId :=
  (finOf 32 b).filter fun w => s.geo.switches[w].defined

/-- REPORT SWITCH, with its tests in order (R98); the report kinds are 0 THROWN, 1 RETURNED, 2 JAMMED (10.2). -/
def State.reqReportSwitch (s : State) (p : PortId) (switch kind position : Byte) : State :=
  if s.geo.phase = .layout then s.refuse p .phase
  else match s.definedSwitch switch with
    | none => s.refuse p (.range 1)
    | some w =>
      if s.switchOwner w ≠ p then s.refuse p .notOwner
      else if kind = 0 then s.takeThrown p w
      else if kind = 1 then s.takeReturned p w
      else if kind = 2 then (positionOf position).elim (s.refuse p (.range 3)) (s.takeJammed p w)
      else s.refuse p (.range 2)

/-- REPORT_SWITCH_THROWN (R99). -/
def execReportSwitchThrown (p : PortId) (switch position : Byte) (s : State) :
    Host.Outcome State Fault Refusal := .next (s.request p (·.reqReportSwitch p switch 0 position))

/-- REPORT_SWITCH_RETURNED (R100). -/
def execReportSwitchReturned (p : PortId) (switch position : Byte) (s : State) :
    Host.Outcome State Fault Refusal := .next (s.request p (·.reqReportSwitch p switch 1 position))

/-- REPORT_SWITCH_JAMMED (R101). -/
def execReportSwitchJammed (p : PortId) (switch position : Byte) (s : State) :
    Host.Outcome State Fault Refusal := .next (s.request p (·.reqReportSwitch p switch 2 position))

/-- REPORT_SWITCH_UNKNOWN_KIND (R98). -/
def execReportSwitchUnknownKind (p : PortId) (switch kind position : Byte) (s : State) :
    Host.Outcome State Fault Refusal := .next (s.request p (·.reqReportSwitch p switch kind position))

/-! ## Deadlines, rechecks and expiries; an event that is not due changes nothing (log 2, 3) -/

/-- ACTUATION_DEADLINE of a PENDING switch (R102). -/
def execActuationDeadline (w : SwitchId) (s : State) : Host.Outcome State Fault Refusal :=
  match (s.switch w).mode with
  | .pending d cl =>
    if reached s.now d then
      .next ((s.closePending w cl .faulted .unknown .lapsed).announceFault w .actuation .pending)
    else .next s
  | .ready | .set _ _ | .restoring _ | .faulted | .disabled => .next s

/-- HOLD_DEADLINE of a SET switch (R103). -/
def execHoldDeadline (w : SwitchId) (s : State) : Host.Outcome State Fault Refusal :=
  match (s.switch w).mode with
  | .set d cl => if reached s.now d then .next (s.restoreSwitch w cl) else .next s
  | .ready | .pending _ _ | .restoring _ | .faulted | .disabled => .next s

/-- RESTORING_ACTUATION_DEADLINE (R104). -/
def execRestoringActuationDeadline (w : SwitchId) (s : State) : Host.Outcome State Fault Refusal :=
  match (s.switch w).mode with
  | .restoring d =>
    if reached s.now d then .next ((s.restSwitch w .faulted .thrown).announceFault w .actuation .restoring)
    else .next s
  | .ready | .pending _ _ | .set _ _ | .faulted | .disabled => .next s

/-- The head of a hold list is judged again (R91). -/
def State.recheckHead (s : State) (w : SwitchId) (head : Hold) : State :=
  match firstFailing (s.exitChecks w) with
  | none => (s.endHold head.car w).grant head.car w
  | some reason =>
    if reason = head.reason then s
    else
      (s.modSwitch w fun st => { st with holds := { head with reason := reason } :: st.holds.tail }).announceDecision
        w head.car (.hold reason)

/-- PIT_EXIT_RECHECK (R91): the recheck time moves on by 20 ms while the list is not empty. -/
def execPitExitRecheck (w : SwitchId) (s : State) : Host.Outcome State Fault Refusal :=
  match (s.switch w).holds, (s.switch w).recheck with
  | head :: _, some t =>
    if reached s.now t then
      .next ((s.recheckHead w head).modSwitch w fun st =>
        { st with recheck := if st.holds.isEmpty then none else some (addMs t 20) })
    else .next s
  | [], _ => .next s
  | _ :: _, none => .next s

/-- INTENT_EXPIRY (R84). -/
def execIntentExpiry (c : CarId) (s : State) : Host.Outcome State Fault Refusal :=
  if dueAt s.now ((s.lane.intents[c]).map (·.expiry)) then .next (s.clearIntent c) else .next s

/-- CONFLICT_CAP_END (R107). -/
def execConflictCapEnd (c : CarId) (s : State) : Host.Outcome State Fault Refusal :=
  if dueAt s.now ((s.lane.conflictCaps[c]).map (·.ends)) then
    .next { s with lane := { s.lane with conflictCaps := modAt s.lane.conflictCaps c fun _ => none } }
  else .next s

/-! ## Switch requests (R109, R125) -/

/-- The run state a request takes a switch to, and its position, where it is taken (Table 5-7). -/
def switchRequestEffect (r : SwitchRequest) (st : SwitchState) : Option (SwitchMode × Position) :=
  match r, st.mode with
  | .disable, .ready => some (.disabled, st.position)
  | .enable, .disabled => some (.ready, st.position)
  | .clear, .faulted => some (.ready, .normal)
  | _, _ => none

/-- A switch request with its tests in order, its DONE reply and its SWITCH_STATE notice (R109, R125). -/
def State.reqSwitch (s : State) (p : PortId) (r : SwitchRequest) (switch : Byte) : State :=
  s.reserved p fun s =>
    match s.definedSwitch switch with
    | none => s.refuse p (.range 1)
    | some w =>
      match switchRequestEffect r (s.switch w) with
      | none => s.refuse p .state
      | some (mode, position) =>
        let s := s.restSwitch w mode position
        (s.offerWithRaceControl (s.switchOwner w) (.switchState w r mode.runState position)).done p
          [mode.runState.byte, position.byte]

/-- SWITCH_DISABLE (R109). -/
def execSwitchDisable (p : PortId) (switch : Byte) (s : State) : Host.Outcome State Fault Refusal :=
  .next (s.request p (·.reqSwitch p .disable switch))

/-- SWITCH_ENABLE (R109). -/
def execSwitchEnable (p : PortId) (switch : Byte) (s : State) : Host.Outcome State Fault Refusal :=
  .next (s.request p (·.reqSwitch p .enable switch))

/-- SWITCH_CLEAR (R109). -/
def execSwitchClear (p : PortId) (switch : Byte) (s : State) : Host.Outcome State Fault Refusal :=
  .next (s.request p (·.reqSwitch p .clear switch))

end Sys2Proof.Machine
end

