-- ==== Sys2Proof/Machine/Pairing.lean ====
section
/-! DEFINITION. Pairing and the Binding Table (03): the window, offers, PAIR edges, manual binding, RELEASE and the
marshal list. -/

namespace Sys2Proof.Machine

/-! ## The window and the offer list -/

/-- Rewrite the offer list. -/
def State.modOffers (s : State) (f : List Offer → List Offer) : State :=
  { s with binding := { s.binding with offers := f s.binding.offers } }

/-- Closing the window empties the offers and offers PAIRING CLOSED to every port (R47). -/
def State.closeWindow (s : State) : State :=
  { s with binding := { s.binding with window := none, offers := [] } }.offerAll (.pairing none)

/-- OPEN PAIRING (R46). -/
def State.reqOpenPairing (s : State) (p : PortId) (seconds : Byte) : State :=
  s.reserved p fun s =>
    if ¬ inRange 5 120 seconds then s.refuse p (.range 1)
    else if s.course.course = .countdown then s.refuse p .state
    else
      let expiry := addMs s.now (seconds.toNat * 1000)
      (({ s with binding := { s.binding with window := some expiry } }).offerAll
        (.pairing (some seconds))).done p []

/-- CLOSE PAIRING (R47). -/
def State.reqClosePairing (s : State) (p : PortId) : State :=
  s.reserved p fun s => (if s.binding.window.isSome then s.closeWindow else s).done p []

/-- A pairing crossing in an OPEN window makes or refreshes the car's offer at the tail; a full list loses its head to
a new car (R49). -/
def joinOffers (offers : List Offer) (o : Offer) : List Offer :=
  if offers.any (·.car == o.car) then offers.filter (·.car != o.car) ++ [o]
  else if 4 ≤ offers.length then offers.tail ++ [o]
  else offers ++ [o]

/-! ## PAIR edges (3.5) -/

/-- The PAIR_RESULT notice (R55). -/
def State.announcePair (s : State) (station : PortId) (identity : Ident) (result : PairResult)
    (c : Option CarId) : State := s.offerWithRaceControl station (.pairResult identity result c)

/-- The pairing of a handset with the offered car (R54). -/
def State.pairWith (s : State) (identity : Ident) (o : Offer) : State :=
  let s := (s.carOf identity).elim s fun old => s.rebind old none id
  let s := s.rebind o.car (some { identity := identity, source := .paired, state := s.heldStateFor identity }) id
  s.modOffers (·.filter (·.car != o.car))

/-- The offer nearest the head at a sensor of the heard station (R52). -/
def State.matchingOffer (s : State) (station : PortId) : Option Offer :=
  s.binding.offers.find? fun o => s.geo.sensors[o.sensor].owner == station

/-- A PAIR edge: the three checks of R51 in order, then the match of R52 and its outcome (R53, R54, R55). -/
def State.pairEdge (s : State) (identity : Ident) (marshal : Bool) (station : PortId) (strength : BitVec 4) :
    State :=
  if s.binding.window.isNone then s.announcePair station identity .closed none
  else if marshal then s
  else if strength.toNat < s.course.settings.pairingFloor.toNat then s.announcePair station identity .weak none
  else match s.matchingOffer station with
    | none => s.announcePair station identity .noCar none
    | some o =>
      if (s.binding.bindings[o.car].held).any (·.identity == identity) then
        (s.modOffers (·.filter (·.car != o.car))).announcePair station identity .same (some o.car)
      else (s.pairWith identity o).announcePair station identity .ok (some o.car)

/-! ## Applies and RELEASE (3.6, 3.7) -/

/-- The DONE reply of an apply: table, index, new revision (R158). -/
def State.applyDone (s : State) (p : PortId) (ref : RecordRef) : State :=
  s.done p [ref.table, ref.index, (s.revisionOf ref).getD 0]

/-- Whether a binding record other than car c's holds an identity (R57). -/
def State.heldByOther (s : State) (c : CarId) (identity : Ident) : Bool :=
  (List.finRange 16).any fun k => k != c && (s.binding.bindings[k].held).any (·.identity == identity)

/-- What a manual apply leaves in the record (R58): an identity kept keeps its state, a new one takes the state its
handset gives it. -/
def State.manualHeld (s : State) (c : CarId) (identity : Option Ident) : Option Held :=
  identity.map fun i =>
    match s.binding.bindings[c].held with
    | some held =>
      if held.identity = i then { held with source := .manual }
      else { identity := i, source := .manual, state := s.heldStateFor i }
    | none => { identity := i, source := .manual, state := s.heldStateFor i }

/-- An apply of a binding record past the common refusals (R57, R58). -/
def State.applyBinding (s : State) (p : PortId) (c : CarId) (image : List Byte) : State :=
  match parseBinding image with
  | .error field => s.refuse p (.range field)
  | .ok x =>
    if x.identity.any (s.heldByOther c) then s.refuse p .inUse
    else if x.identity.any fun i => (s.marshalOf i).isSome then s.refuse p .marshal
    else (s.rebind c (s.manualHeld c x.identity) fun b =>
      { b with ceiling := x.ceiling, permit := x.permit }).applyDone p (.binding c)

/-- Set or clear the marshal flag of the record in use that holds an identity; a LOST record that loses it is freed
(R20, R61). -/
def State.flagMarshal (s : State) (identity : Ident) (flag : Bool) : State :=
  match s.handsetOf identity with
  | some h => (s.modHandset h fun r => { r with marshal := flag }).freeIfForsaken h
  | none => s

/-- Whether a marshal entry other than m holds an identity (R61). -/
def State.listedElsewhere (s : State) (m : MarshalId) (identity : Ident) : Bool :=
  (List.finRange 4).any fun k => k != m && s.binding.marshals[k].identity == some identity

/-- The change of a marshal entry's identity is carried to the Handset Table (R61). -/
def State.carryMarshal (s : State) (old new : Option Ident) : State :=
  if old = new then s
  else
    let s := old.elim s (s.flagMarshal · false)
    new.elim s (s.flagMarshal · true)

/-- An apply of a marshal entry past the common refusals (R61). -/
def State.applyMarshal (s : State) (p : PortId) (m : MarshalId) (image : List Byte) : State :=
  let identity := identOf (wordAt image 0)
  if identity.any fun i => (s.carOf i).isSome || s.listedElsewhere m i then s.refuse p .inUse
  else
    let s := s.carryMarshal s.binding.marshals[m].identity identity
    let s := { s with binding := { s.binding with marshals := modAt s.binding.marshals m fun e =>
      { identity := identity, revision := e.revision + 1, mark := .dirty } } }
    (s.offerRaceControl (.marshalList m identity s.binding.marshals[m].revision)).applyDone p (.marshal m)

/-- RELEASE (R59). -/
def State.reqRelease (s : State) (p : PortId) (car : Byte) : State :=
  s.reserved p fun s =>
    match numOf 16 car with
    | none => s.refuse p (.range 1)
    | some c => (if s.binding.bindings[c].held.isSome then s.rebind c none id else s).done p []

/-! ## Commands -/

/-- OPEN_PAIRING (R46). -/
def execOpenPairing (p : PortId) (seconds : Byte) (s : State) : Host.Outcome State Fault Refusal :=
  .next (s.request p (·.reqOpenPairing p seconds))

/-- CLOSE_PAIRING (R47). -/
def execClosePairing (p : PortId) (s : State) : Host.Outcome State Fault Refusal :=
  .next (s.request p (·.reqClosePairing p))

/-- RELEASE (R59). -/
def execRelease (p : PortId) (car : Byte) (s : State) : Host.Outcome State Fault Refusal :=
  .next (s.request p (·.reqRelease p car))

/-- PAIRING_WINDOW_EXPIRY (R47): not due, no change (log 2, 3). -/
def execPairingWindowExpiry (s : State) : Host.Outcome State Fault Refusal :=
  if dueAt s.now s.binding.window then .next s.closeWindow else .next s

/-- OFFER_EXPIRY of a car's offer, 4000 ms after its stamp (R50). -/
def execOfferExpiry (c : CarId) (s : State) : Host.Outcome State Fault Refusal :=
  .next (s.modOffers (·.filter fun o => !(o.car == c && reached s.now (addMs o.stamp 4000))))

end Sys2Proof.Machine
end

