-- ==== Sys2Proof/Machine/Crossings.lean ====
section
/-! DEFINITION. Car Tracking and Zone Occupancy (04): crossing reports and stalls. -/

namespace Sys2Proof.Machine

/-- The DONE reply of REPORT CROSSING with its outcome byte: 0 ACCEPTED, 1 DUPLICATE, 2 LATE, 3 OFFERED, 4 NO_WINDOW
(Tables 4-2 and 10-4). -/
def State.crossingDone (s : State) (p : PortId) (outcome : Byte) : State := s.done p [outcome]

/-- A crossing at a PAIRING sensor goes to the Pairing Controller and leaves the position alone (R49, R67). -/
def State.pairingCrossing (s : State) (p : PortId) (n : SensorId) (c : CarId) (stamp : Time) : State :=
  if s.binding.window.isSome then
    (s.modOffers fun l => joinOffers l { car := c, sensor := n, stamp := stamp }).crossingDone p 3
  else s.crossingDone p 4

/-- A duplicate: the car's last sensor again, within 100 ms of its last crossing stamp (R68). -/
def State.duplicateCrossing (s : State) (n : SensorId) (c : CarId) (stamp : Time) : Bool :=
  s.tracker.cars[c].lastSensor == some n && within100 stamp s.tracker.cars[c].lastStamp

/-- The entry stamp that makes a crossing late: the car is placed and the crossing's stamp is earlier (R69). -/
def State.lateAgainst (s : State) (c : CarId) (stamp : Time) : Option Time :=
  ((s.tracker.cars[c].placed).map (·.entryStamp)).filter (earlier stamp)

/-- The conflicting car nearest the head of zone z's list: joined by SWITCH, its entry stamp later than t or earlier by
less than the guard time, both as signed modular differences; guard time 0 makes no test (R73, log 18). -/
def State.conflictIn (s : State) (z : ZoneId) (c : CarId) (t : Time) : Option CarId :=
  let guardTime := s.geo.zones[z].guardTime.toNat
  if guardTime = 0 then none
  else (s.tracker.lists[z].find? fun o =>
    o.car != c && o.way == .switch && decide ((t - o.entryStamp).toInt < guardTime)).map (·.car)

/-- Placement of a car by a crossing (R70). -/
def State.placeCrossing (s : State) (n : SensorId) (z : ZoneId) (c : CarId) (stamp : Time) : State :=
  let s := s.moveCar c z stamp .sensor
  { s with tracker := { s.tracker with cars := modAt s.tracker.cars c fun r =>
    { r with lastSensor := some n, lastStamp := stamp } } }

/-- The conflict test on the zone a crossing has put a car into (R71 step 3). -/
def State.conflictTest (s : State) (z : ZoneId) (c : CarId) (stamp : Time) : State :=
  (s.conflictIn z c stamp).elim s (s.setConflictCap c z)

/-- A jump report, when the course is COUNTDOWN (R74, R120). -/
def State.jumpTest (s : State) (n : SensorId) (c : CarId) (stamp : Time) : State :=
  if s.course.course = .countdown then s.offerRaceControl (.jump c n s.course.lampCount stamp) else s

/-- A placed crossing is handed on to reconciliation, caps, conflict test and jump report, in the order of R71. -/
def State.handOver (s : State) (n : SensorId) (z : ZoneId) (c : CarId) (stamp : Time) : State :=
  (((s.reconcile c n s.geo.zones[z].lane).endCapsByCrossing c).conflictTest z c stamp).jumpTest n c stamp

/-- A placed crossing is handed on, and at an ENTRY sensor last to the Lane Arbiter's decision (R71). -/
def State.handOn (s : State) (n : SensorId) (z : ZoneId) (switch : Option SwitchId) (c : CarId) (stamp : Time) :
    State :=
  let s := s.handOver n z c stamp
  switch.elim s (s.decideEntry c)

/-- A crossing at a BOUNDARY or ENTRY sensor: duplicate, late, or placed and handed on (R68 to R71). -/
def State.trackCrossing (s : State) (p : PortId) (n : SensorId) (z : ZoneId) (switch : Option SwitchId)
    (c : CarId) (stamp : Time) : State :=
  if s.duplicateCrossing n c stamp then s.crossingDone p 1
  else match s.lateAgainst c stamp with
    | some entryStamp =>
      (s.offerRaceControl (.lateCrossing c n p (min (entryStamp - stamp).toNat 65535))).crossingDone p 2
    | none => ((s.placeCrossing n z c stamp).handOn n z switch c stamp).crossingDone p 0

/-- REPORT CROSSING with its tests in order (R66); the stamp is now less the age (R67). -/
def State.reqReportCrossing (s : State) (p : PortId) (sensor car age : Byte) : State :=
  if s.geo.phase = .layout then s.refuse p .phase
  else match (finOf 128 sensor).filter fun n => s.geo.sensors[n].defined with
    | none => s.refuse p (.range 1)
    | some n =>
      if s.geo.sensors[n].owner ≠ p then s.refuse p .notOwner
      else match numOf 16 car with
        | none => s.refuse p (.range 2)
        | some c =>
          let stamp := s.now - age.setWidth 32
          match s.geo.sensors[n].kind with
          | .pairing => s.pairingCrossing p n c stamp
          | .boundary z => s.trackCrossing p n z none c stamp
          | .entry z w => s.trackCrossing p n z (some w) c stamp

/-- REPORT_CROSSING (R66). -/
def execReportCrossing (p : PortId) (sensor car age : Byte) (s : State) : Host.Outcome State Fault Refusal :=
  .next (s.request p (·.reqReportCrossing p sensor car age))

/-- STALL (R75): a TRACKED car whose stall deadline is reached becomes STALLED, with its alert; not due, no change
(log 2, 3). -/
def execStall (c : CarId) (s : State) : Host.Outcome State Fault Refusal :=
  match s.tracker.cars[c].placed with
  | some pl =>
    if !pl.stalled && dueAt s.now s.tracker.cars[c].stallDeadline then
      let cars := modAt s.tracker.cars c fun r =>
        { r with placed := some { pl with stalled := true }, stallDeadline := none }
      .next (({ s with tracker := { s.tracker with cars := cars } }).offerRaceControl
        (.stall c pl.zone s.geo.zones[pl.zone].stallTime))
    else .next s
  | none => .next s

end Sys2Proof.Machine
end

