-- ==== Sys2Proof/Machine/Course.lean ====
section
/-! DEFINITION. Course Control (06): the course, lamps, pit flag, locks, marshal actions, track clear and settings. -/

namespace Sys2Proof.Machine

/-! ## The course -/

/-- START with its tests in order (R116). -/
def State.reqStart (s : State) (p : PortId) : State :=
  s.reserved p fun s =>
    if s.geo.phase = .layout then s.refuse p .phase
    else if s.course.course ≠ .stop then s.refuse p .state
    else (s.changeCourse .countdown 5 (some (addMs s.now 1000)) (.request p)).done p []

/-- STOP (R118). -/
def State.reqStop (s : State) (p : PortId) : State :=
  s.reserved p fun s => (if s.course.course = .stop then s else s.toStop (.request p)).done p []

/-- CAUTION (Table 6-3). -/
def State.reqCaution (s : State) (p : PortId) : State :=
  s.reserved p fun s =>
    match s.course.course with
    | .stop | .countdown => s.refuse p .state
    | .green => (s.toCaution (.request p)).done p []
    | .caution => s.done p []

/-- GREEN (Table 6-3). -/
def State.reqGreen (s : State) (p : PortId) : State :=
  s.reserved p fun s =>
    match s.course.course with
    | .stop | .countdown => s.refuse p .state
    | .green => s.done p []
    | .caution => (s.changeCourse .green s.course.lampCount s.course.nextLamp (.request p)).done p []

/-- A marshal edge (Table 6-4): its effect, then its MARSHAL_ACTION notice. -/
def State.marshalEdge (s : State) (identity : Ident) (live : Bool) (code : LaneCode) (station : PortId) : State :=
  let tell := fun (s : State) result => s.offerWithRaceControl station (.marshalAction identity code result)
  if !live then tell s .notLive
  else match code, s.course.course with
    | .shiftIn, .green => tell (s.toCaution (.marshal identity)) .applied
    | .shiftIn, .stop | .shiftIn, .countdown | .shiftIn, .caution => tell s .noEffect
    | .pit, .stop => tell s .noEffect
    | .pit, .countdown | .pit, .green | .pit, .caution => tell (s.toStop (.marshal identity)) .applied
    | .shiftOut, _ => tell s .noEffect

/-! ## Pit and zone locks -/

/-- PIT OPEN and PIT CLOSE (R123). -/
def State.reqPit (s : State) (p : PortId) (opened : Bool) : State :=
  s.reserved p fun s =>
    (if s.course.pitOpen = opened then s
      else ({ s with course := { s.course with pitOpen := opened } }).offerAll (.pit opened)).done p []

/-- ZONE LOCK (R124); the lock byte is 0 OFF or 1 ON (Table 10-3). -/
def State.reqZoneLock (s : State) (p : PortId) (zone lock : Byte) : State :=
  s.reserved p fun s =>
    match finOf 64 zone with
    | some z =>
      if 1 < lock.toNat then s.refuseRange p [2]
      else
        let locked := lock == 1
        (if s.course.locks[z] = locked then s
          else ({ s with course := { s.course with locks := modAt s.course.locks z fun _ => locked } }).offerRaceControl
            (.zoneLock z locked)).done p []
    | none => s.refuseRange p (if 1 < lock.toNat then [1, 2] else [1])

/-! ## Track clear (R79, R110, R126) -/

/-- The Car Tracker's part: positions UNKNOWN, deadlines absent, lists empty; last sensors and stamps are kept (R79). -/
def State.clearPositions (s : State) : State :=
  { s with tracker :=
      { cars := mapAll s.tracker.cars fun _ r => { r with placed := none, stallDeadline := none }
        lists := mapAll s.tracker.lists fun _ _ => [] } }

/-- Every intent absent, every cap removed, every hold list empty with its recheck time absent (R110). -/
def State.clearLane (s : State) : State :=
  { s with lane :=
      { intents := mapAll s.lane.intents fun _ _ => none
        switches := mapAll s.lane.switches fun _ st => { st with holds := [], recheck := none }
        conflictCaps := mapAll s.lane.conflictCaps fun _ _ => none
        busyCaps := mapAll s.lane.busyCaps fun _ _ => none
        pitHolds := mapAll s.lane.pitHolds fun _ _ => none } }

/-- A switch in PENDING or SET closes its claim and is offered a RESTORE (R110). -/
def State.clearSwitch (s : State) (w : SwitchId) : State :=
  match (s.switch w).mode.claim with
  | some cl => s.restoreSwitch w cl
  | none => s

/-- The switches that hold a claim. -/
def State.claimedSwitches (s : State) : List SwitchId :=
  (List.finRange 32).filter fun w => (s.switch w).mode.claim.isSome

/-- TRACK CLEAR: the switches in ascending order, and the alert after all of them, with the numbers sent to RESTORING
and FAULTED (R126). -/
def State.reqTrackClear (s : State) (p : PortId) : State :=
  s.reserved p fun s =>
    if s.course.course ≠ .stop then s.refuse p .state
    else
      let claimed := s.claimedSwitches
      let s := (List.finRange 32).foldl State.clearSwitch s.clearPositions.clearLane
      let count := fun (r : RunState) => claimed.countP fun w => (s.switch w).mode.runState == r
      (s.offerAll (.trackClear (count .restoring) (count .faulted))).done p []

/-! ## Settings (R128) -/

/-- An apply of the settings record past the common refusals (R128). -/
def State.applySettings (s : State) (p : PortId) (image : List Byte) : State :=
  match parseSettings image (s.course.settings.revision + 1) with
  | .error field => s.refuse p (.range field)
  | .ok x =>
    (({ s with course := { s.course with settings := x } }).offerRaceControl (.settings x.revision)).applyDone p
      .settings

/-! ## Commands -/

/-- START (R116). -/
def execStart (p : PortId) (s : State) : Host.Outcome State Fault Refusal := .next (s.request p (·.reqStart p))

/-- STOP (R118). -/
def execStop (p : PortId) (s : State) : Host.Outcome State Fault Refusal := .next (s.request p (·.reqStop p))

/-- CAUTION (R119). -/
def execCaution (p : PortId) (s : State) : Host.Outcome State Fault Refusal :=
  .next (s.request p (·.reqCaution p))

/-- GREEN (R119). -/
def execGreen (p : PortId) (s : State) : Host.Outcome State Fault Refusal := .next (s.request p (·.reqGreen p))

/-- LAMP_EXPIRY (R117): the lamps step at fixed 1000 ms intervals; at 0 the course becomes GREEN. Not due, no change
(log 2, 3). -/
def execLampExpiry (s : State) : Host.Outcome State Fault Refusal :=
  match s.course.course, s.course.nextLamp with
  | .countdown, some t =>
    if reached s.now t then
      if s.course.lampCount ≤ 1 then .next (s.changeCourse .green 0 none .countdownEnd)
      else
        .next { s with course :=
          { s.course with lampCount := s.course.lampCount - 1, nextLamp := some (addMs t 1000) } }
    else .next s
  | _, _ => .next s

/-- PIT_OPEN (R123). -/
def execPitOpen (p : PortId) (s : State) : Host.Outcome State Fault Refusal :=
  .next (s.request p (·.reqPit p true))

/-- PIT_CLOSE (R123). -/
def execPitClose (p : PortId) (s : State) : Host.Outcome State Fault Refusal :=
  .next (s.request p (·.reqPit p false))

/-- ZONE_LOCK (R124). -/
def execZoneLock (p : PortId) (zone lock : Byte) (s : State) : Host.Outcome State Fault Refusal :=
  .next (s.request p (·.reqZoneLock p zone lock))

/-- TRACK_CLEAR (R126). -/
def execTrackClear (p : PortId) (s : State) : Host.Outcome State Fault Refusal :=
  .next (s.request p (·.reqTrackClear p))

end Sys2Proof.Machine
end

