-- ==== Sys2Proof/Machine/Handsets.lean ====
section
/-! DEFINITION. Handset Reception (02): forwarded reports, link states and code edges. -/

namespace Sys2Proof.Machine

/-- A report whose payload has passed its range test (R21). -/
structure Report where
  identity : Ident
  count : BitVec 4
  throttle : BitVec 6
  code : BitVec 4
  batteryLow : Bool
  strength : BitVec 4
  deriving DecidableEq, Repr

/-- The DONE reply of REPORT HANDSET: 0 ACCEPTED, 1 DUPLICATE, 2 LATE, 3 TABLE_FULL (Tables 2-2 and 10-4). -/
def State.reportDone (s : State) (p : PortId) (outcome : Byte) : State := s.done p [outcome]

/-! ## Link transitions (2.4, 2.5) -/

/-- Who a record belongs to: its bound car, else its marshal entry (R35, R167). -/
def State.holderOf (s : State) (r : Handset) : Option Holder :=
  match r.boundCar with
  | some c => some (.car c)
  | none => if r.marshal then (s.marshalOf r.identity).map .marshal else none

/-- The HANDSET_STATE notice of a bound or marshal record, to race control and the heard station (R35). -/
def State.announceLink (s : State) (r : Handset) : State :=
  (s.holderOf r).elim s fun holder =>
    s.offerWithRaceControl r.heardStation (.handsetState r.identity r.link holder)

/-- A record enters LIVE: its car moves from RESERVED or SUSPENDED to BOUND, then the notice (R28, R34, R43). -/
def State.handLive (s : State) (r : Handset) : State :=
  (r.boundCar.elim s fun c => s.moveBinding c (· != .bound) .bound).announceLink r

/-- A record enters LOST: its BOUND car moves to SUSPENDED, then the notice (R30, R34, R44). -/
def State.handLost (s : State) (r : Handset) : State :=
  (r.boundCar.elim s fun c => s.moveBinding c (· == .bound) .suspended).announceLink r

/-! ## Code edges (R36, R37) -/

/-- The lane code a button code stands for (Table 2-6). -/
def laneCodeOf (code : BitVec 4) : Option LaneCode :=
  if code = 1 then some .shiftIn else if code = 2 then some .shiftOut else if code = 3 then some .pit else none

/-- Where a code edge goes (Table 2-7): PAIR to the Pairing Controller, a lane code to the Course Controller from a
marshal and to the Lane Arbiter from anyone else, any other code nowhere. -/
def State.handEdge (s : State) (h : Handset) (station : PortId) (strength : BitVec 4) : State :=
  if h.heldCode = 4 then s.pairEdge h.identity h.marshal station strength
  else match laneCodeOf h.heldCode with
    | some code =>
      if h.marshal then s.marshalEdge h.identity (h.link == .live) code station
      else s.laneEdge h.identity code
    | none => s

/-! ## Accepted reports (R26) -/

/-- Step 1: the record takes the report. -/
def Handset.takeReport (r : Handset) (rep : Report) (p : PortId) (now : Time) : Handset :=
  { r with
    lastCount := rep.count, throttle := rep.throttle, batteryLow := rep.batteryLow,
    lastStrength := rep.strength, heardStation := p, reportStamp := now }

/-- Step 2: the link state moves to the given state, with its stamp; a move into LIVE is handed on (R28, R31). -/
def State.moveLink (s : State) (h : HandsetId) (r : Handset) (link : LinkState) : State :=
  if link = r.link then s
  else
    let r := { r with link := link, stateStamp := s.now }
    let s := s.modHandset h fun _ => r
    if link = .live then s.handLive r else s

/-- Step 3: a change of the battery mark offers BATTERY to the heard station (R27). -/
def State.batteryStep (s : State) (r : Handset) (wasLow : Bool) : State :=
  if r.batteryLow = wasLow then s
  else s.offerTo r.heardStation (.battery r.identity r.batteryLow r.boundCar)

/-- Step 4: two consecutive accepted reports with a code other than the held one make an edge (R36). -/
def State.validate (s : State) (h : HandsetId) (rep : Report) (p : PortId) : State :=
  match s.handsets.records[h] with
  | some r =>
    let edge := rep.code == r.candidateCode && rep.code != r.heldCode
    let r := { r with heldCode := if edge then rep.code else r.heldCode, candidateCode := rep.code }
    let s := s.modHandset h fun _ => r
    if edge then s.handEdge r p rep.strength else s
  | none => s

/-- An accepted report on record h, whose fields were old, taking the link to the given state: the four steps of R26. -/
def State.acceptReport (s : State) (p : PortId) (h : HandsetId) (old : Handset) (rep : Report)
    (link : LinkState) : State :=
  let r := old.takeReport rep p s.now
  let s := s.modHandset h fun _ => r
  let s := s.moveLink h r link
  let s := s.batteryStep r old.batteryLow
  (s.validate h rep p).reportDone p 0

/-- The record made at allocation, with its bound car and marshal flag (R20, R22). -/
def State.freshRecord (s : State) (identity : Ident) (p : PortId) : Handset :=
  { identity := identity, link := .acquiring, lastCount := 0, throttle := 0, heldCode := 0, candidateCode := 0,
    heardStation := p, batteryLow := false, lastStrength := 0, boundCar := s.carOf identity,
    marshal := (s.marshalOf identity).isSome, duplicateCount := 0, lateCount := 0, reportStamp := s.now,
    stateStamp := s.now }

/-- The lowest-indexed free record (R22). -/
def State.freeRecord (s : State) : Option HandsetId := firstIdx 24 fun h => (s.handsets.records[h]).isNone

/-- A report of an unknown identity: allocation, or TABLE_FULL with the alert of an ARMED flag (R22, R23). -/
def State.firstReport (s : State) (p : PortId) (rep : Report) : State :=
  match s.freeRecord with
  | some h =>
    let r := s.freshRecord rep.identity p
    { s with handsets := { s.handsets with records := modAt s.handsets.records h fun _ => some r } }.acceptReport p h
      r rep .acquiring
  | none =>
    (match s.handsets.fullAlert with
      | .armed =>
        ({ s with handsets := { s.handsets with fullAlert := .sent } }).offerRaceControl
          (.handsetTableFull rep.identity)
      | .sent => s).reportDone p 3

/-- A report for a known identity, tested by its count difference (Table 2-3, R25, R28, R31). -/
def State.knownReport (s : State) (p : PortId) (h : HandsetId) (r : Handset) (rep : Report) : State :=
  let d := (rep.count - r.lastCount).toNat
  match r.link with
  | .stale | .lost => s.acceptReport p h r rep .acquiring
  | .acquiring | .live =>
    if d = 0 then (s.modHandset h fun r => { r with duplicateCount := satInc r.duplicateCount }).reportDone p 1
    else if 8 ≤ d then (s.modHandset h fun r => { r with lateCount := satInc r.lateCount }).reportDone p 2
    else s.acceptReport p h r rep (if d = 1 then .live else r.link)

/-- A report that has passed its range test (R22, R24). -/
def State.filterReport (s : State) (p : PortId) (rep : Report) : State :=
  match s.handsetOf rep.identity with
  | some h => (s.handsets.records[h]).elim s fun r => s.knownReport p h r rep
  | none => s.firstReport p rep

/-- The places of the payload values outside their range (R21): identity 1, count 2, throttle 3, code 4, strength 6. -/
def reportRangePlaces (identity : Ident) (count throttle code strength : Byte) : List Byte :=
  [((identOf identity).isNone, 1), (decide (15 < count.toNat), 2), (decide (63 < throttle.toNat), 3),
    (decide (15 < code.toNat), 4), (decide (15 < strength.toNat), 6)].filterMap
      fun (bad, place) => if bad then some place else none

/-- REPORT HANDSET (R21); the battery mark is bit 0 of its byte (10.2). -/
def State.reqReportHandset (s : State) (p : PortId) (identity : Ident)
    (count throttle code battery strength : Byte) : State :=
  let places := reportRangePlaces identity count throttle code strength
  if places.isEmpty then
    s.filterReport p
      { identity := identity, count := count.setWidth 4, throttle := throttle.setWidth 6, code := code.setWidth 4,
        batteryLow := battery.getLsbD 0, strength := strength.setWidth 4 }
  else s.refuseRange p places

/-! ## Commands -/

/-- REPORT_HANDSET (R21). -/
def execReportHandset (p : PortId) (identity : Ident) (count throttle code battery strength : Byte) (s : State) :
    Host.Outcome State Fault Refusal :=
  .next (s.request p (·.reqReportHandset p identity count throttle code battery strength))

/-- STALE_EXPIRY (R29): 60 ms after the report stamp of an ACQUIRING or LIVE record; not due, no change (log 2, 3). -/
def execStaleExpiry (h : HandsetId) (s : State) : Host.Outcome State Fault Refusal :=
  match s.handsets.records[h] with
  | some r =>
    if (r.link == .acquiring || r.link == .live) && reached s.now (addMs r.reportStamp 60) then
      let r := { r with link := .stale, heldCode := 0, candidateCode := 0, stateStamp := s.now }
      .next ((s.modHandset h fun _ => r).announceLink r)
    else .next s
  | none => .next s

/-- HANDSET_LOST_EXPIRY (R30, R32): 3000 ms after the state stamp of a STALE record, which is handed on and kept, or
freed if it is neither bound nor a marshal's; not due, no change (log 2, 3). -/
def execHandsetLostExpiry (h : HandsetId) (s : State) : Host.Outcome State Fault Refusal :=
  match s.handsets.records[h] with
  | some r =>
    if r.link == .stale && reached s.now (addMs r.stateStamp 3000) then
      let r := { r with link := .lost, stateStamp := s.now }
      .next (((s.modHandset h fun _ => r).handLost r).freeIfForsaken h)
    else .next s
  | none => .next s

end Sys2Proof.Machine
end

