-- ==== Sys2Proof/Machine/Layout.lean ====
section
/-! DEFINITION. Track Geometry Tables (01): applies of geometry records and the layout phase. -/

namespace Sys2Proof.Machine

/-! ## Applies of geometry records past the common refusals (R7, R8, R9) -/

/-- An apply of a zone record. -/
def State.applyZone (s : State) (p : PortId) (z : ZoneId) (image : List Byte) : State :=
  match parseZone image (s.geo.zones[z].revision + 1) with
  | .error field => s.refuse p (.range field)
  | .ok x =>
    ({ s with geo := { s.geo with zones := modAt s.geo.zones z fun _ => x } }).applyDone p (.zone z)

/-- An apply of a switch record; its run state and position are left (R5). -/
def State.applySwitch (s : State) (p : PortId) (w : SwitchId) (image : List Byte) : State :=
  match parseSwitch image (s.geo.switches[w].revision + 1) with
  | .error field => s.refuse p (.range field)
  | .ok x =>
    ({ s with geo := { s.geo with switches := modAt s.geo.switches w fun _ => x } }).applyDone p (.switch w)

/-- An apply of a sensor record. -/
def State.applySensor (s : State) (p : PortId) (n : SensorId) (image : List Byte) : State :=
  match parseSensor image (s.geo.sensors[n].revision + 1) with
  | .error field => s.refuse p (.range field)
  | .ok x =>
    ({ s with geo := { s.geo with sensors := modAt s.geo.sensors n fun _ => x } }).applyDone p (.sensor n)

/-! ## The layout checks (Table 1-6) -/

/-- Whether a defined ENTRY sensor names switch w. -/
def Sensor.entersSwitch (n : Sensor) (w : SwitchId) : Bool :=
  n.defined && match n.kind with
    | .entry _ w' => w' == w
    | .boundary _ => false
    | .pairing => false

/-- Checks 4, 5 and 6: the lanes by kind. -/
def kindLanesOk (kind : SwitchKind) (entryLane targetLane : Byte) : Bool :=
  match kind with
  | .crossover => entryLane != 4 && targetLane != 4
  | .pitEntry => targetLane == 4 && entryLane != 4
  | .pitExit => entryLane == 4 && targetLane != 4

/-- Checks 1 to 8 on a defined switch. -/
def Geometry.switchOk (g : Geometry) (w : SwitchId) : Bool :=
  let sw := g.switches[w]
  let entryLane := g.zones[sw.entryZone].lane
  let targetLane := g.zones[sw.targetZone].lane
  g.zones[sw.entryZone].defined && g.zones[sw.targetZone].defined &&
    sw.watchZone.all (fun z => g.zones[z].defined) &&
    entryLane != targetLane &&
    kindLanesOk sw.kind entryLane targetLane &&
    sw.watchZone.all (fun z => g.zones[z].lane == targetLane) &&
    g.sensors.toList.countP (·.entersSwitch w) == 1

/-- Checks 9 to 11 on a defined sensor. -/
def Geometry.sensorOk (g : Geometry) (n : SensorId) : Bool :=
  match g.sensors[n].kind with
  | .boundary z => g.zones[z].defined
  | .entry z w => g.zones[z].defined && g.switches[w].defined && g.switches[w].entryZone == z
  | .pairing => true

/-- The lowest failing switch record. -/
def Geometry.failingSwitch (g : Geometry) : Option SwitchId :=
  firstIdx 32 fun w => g.switches[w].defined && !g.switchOk w

/-- The lowest failing sensor record. -/
def Geometry.failingSensor (g : Geometry) : Option SensorId :=
  firstIdx 128 fun n => g.sensors[n].defined && !g.sensorOk n

/-! ## The layout phase -/

/-- Every switch, defined or not, becomes READY with position NORMAL (R12, R16; log 22). -/
def State.readySwitches (s : State) : State :=
  let switches := mapAll s.lane.switches fun _ st => { st with mode := .ready, position := .normal }
  { s with lane := { s.lane with switches := switches } }

/-- A change of phase, with its LAYOUT notice (R17). -/
def State.changePhase (s : State) (phase : Phase) : State :=
  ({ s with geo := { s.geo with phase := phase } }).offerAll (.layout phase)

/-- LAYOUT RUN (R12, R13, R14). -/
def State.reqLayoutRun (s : State) (p : PortId) : State :=
  s.reserved p fun s =>
    if s.geo.phase = .run then s.refuse p .phase
    else match s.geo.failingSwitch, s.geo.failingSensor with
      | some w, _ => s.refuse p (.layoutFault 1 (idxByte w))
      | none, some n => s.refuse p (.layoutFault 2 (idxByte n))
      | none, none => (s.readySwitches.changePhase .run).done p []

/-- The Car Tracker's part of a layout edit: a track clear, with every last sensor absent and last crossing stamp 0
(R80). -/
def State.forgetPositions (s : State) : State :=
  let s := s.clearPositions
  let cars := mapAll s.tracker.cars fun _ r => { r with lastSensor := none, lastStamp := 0 }
  { s with tracker := { s.tracker with cars := cars } }

/-- Whether some switch is PENDING, SET or RESTORING (R15). -/
def State.anyInMotion (s : State) : Bool := s.lane.switches.toList.any (·.mode.inMotion)

/-- LAYOUT EDIT with its tests in order (R15, R16). -/
def State.reqLayoutEdit (s : State) (p : PortId) : State :=
  s.reserved p fun s =>
    if s.geo.phase = .layout then s.refuse p .phase
    else if s.course.course ≠ .stop then s.refuse p .state
    else if s.anyInMotion then s.refuse p .state
    else
      ((s.forgetPositions.clearLane.readySwitches.modOffers fun _ => []).changePhase .layout).done p []

/-! ## Commands -/

/-- LAYOUT_RUN (R12). -/
def execLayoutRun (p : PortId) (s : State) : Host.Outcome State Fault Refusal :=
  .next (s.request p (·.reqLayoutRun p))

/-- LAYOUT_EDIT (R16). -/
def execLayoutEdit (p : PortId) (s : State) : Host.Outcome State Fault Refusal :=
  .next (s.request p (·.reqLayoutEdit p))

end Sys2Proof.Machine
end

