-- ==== Sys2Proof/Machine/Flags.lean ====
section
/-! DEFINITION. Computed flags and checks: the link CRC, ATTNn, the status byte, the reply frame and SDOn, and the
bits, checks and parities of the rail words. -/

namespace Sys2Proof.Machine

/-! ## Bits -/

/-- The bits of a value, most significant first (R165, R168). -/
def bitsOf {n : Nat} (x : BitVec n) : List Bool := (List.range n).map x.getMsbD

/-- The bits of a number in n bits, most significant first. -/
def natBits (n x : Nat) : List Bool := bitsOf (BitVec.ofNat n x)

/-- The bits of a run of bytes in the order they are shifted (R165). -/
def byteBits (bytes : List Byte) : List Bool := bytes.flatMap bitsOf

/-- The byte of eight bits, most significant first. -/
def byteOfBits (bits : List Bool) : Byte :=
  bits.foldl (fun acc b => acc <<< 1 ||| flagByte b) 0

/-- The whole bytes gathered from the bits sampled on SDIn; a byte left incomplete is discarded (R152). -/
def gatherBytes : List Bool → List Byte
  | b7 :: b6 :: b5 :: b4 :: b3 :: b2 :: b1 :: b0 :: rest =>
    byteOfBits [b7, b6, b5, b4, b3, b2, b1, b0] :: gatherBytes rest
  | _ => []

/-- The number of one bits. -/
def ones (bits : List Bool) : Nat := bits.countP id

/-! ## The link CRC (9.2, R165) -/

/-- One shift of the running check: after a one left the top bit, 0x07 is combined in. -/
def crcShift (c : Byte) : Byte := if c.msb then (c <<< 1) ^^^ 0x07 else c <<< 1

/-- One byte combined with the running check and shifted eight times. -/
def crcByte (c b : Byte) : Byte :=
  crcShift (crcShift (crcShift (crcShift (crcShift (crcShift (crcShift (crcShift (c ^^^ b))))))))

/-- The 8-bit check of a run of bytes, from 0, without inversion. -/
def crc8 (bytes : List Byte) : Byte := bytes.foldl crcByte 0

/-- A request frame: code, length, payload, CRC (R165). -/
def requestFrameBytes (code : Byte) (payload : List Byte) : List Byte :=
  let body := code :: natByte payload.length :: payload
  body ++ [crc8 body]

/-! ## Attention, status byte and reply frame (R152, R154, R161) -/

/-- ATTNn is asserted while the queue holds a DIRECTIVE or an ALERT, or the level is at or above the attention level;
it is negated while the queue is empty (R161). -/
def Port.attention (pt : Port) : Bool :=
  pt.queue.any (·.body.cls != .info) || (pt.queue != [] && pt.attentionLevel ≤ pt.level)

/-- The status byte of a port (Tables 9-2 and 10-1). -/
def State.statusByte (s : State) (p : PortId) : Byte :=
  let pt := s.ports[p]
  byteOfBits [pt.attention, pt.queue != [], pt.queue.any (·.body.cls == .directive), 0 < pt.shedCount,
    pt.checkError, pt.raceControl, s.geo.phase == .run, s.binding.window.isSome]

/-- The reply frame: status byte, reply code, length, payload, CRC over all of these (R152, R154, R165). -/
def State.replyFrame (s : State) (p : PortId) : List Byte :=
  let r := s.ports[p].reply
  let body := s.statusByte p :: r.code :: natByte r.payload.length :: r.payload
  body ++ [crc8 body]

/-- The level that SDOn carries at the k-th clock of a transaction: the reply frame's bits, then zeros; none while
SELn is high, when SDOn is high impedance (R152, Table 10-8). -/
def Port.sdo (pt : Port) (k : Nat) : Option Bool :=
  if pt.selLow then some ((byteBits pt.shiftFrame).getD k false) else none

/-- The level of the ATTNn pin, active low. -/
def Port.attnPin (pt : Port) : Bool := !pt.attention

/-! ## Rail words (R132, R136, R139, R168) -/

/-- The sync: inverted in frame 0 of the superframe (R132). -/
def syncBits (frame : Fin 8) : List Bool :=
  let pattern := [true, true, true, true, false, false, true, true, false, true, false, true]
  if frame = 0 then pattern.map not else pattern

/-- The broadcast word with its check, the number of one bits in its first nine (R136). -/
def broadcastBits (frame : Fin 8) (course : Course) (lamps : Nat) (pitOpen : Bool) : List Bool :=
  let fields := natBits 3 frame.val ++ natBits 2 course.byte.toNat ++ natBits 3 lamps ++ [pitOpen]
  fields ++ natBits 3 (ones fields)

/-- The bit that makes the number of one bits even (R139). -/
def evenParity (bits : List Bool) : Bool := ones bits % 2 == 1

/-- A car word: speed, brake, lamp, and the two parity bits (R139, R168). -/
def carBits (speed : BitVec 6) (brake lamp : Bool) : List Bool :=
  bitsOf speed ++ [brake, lamp, evenParity (bitsOf speed), evenParity [brake, lamp]]

/-! ## Positions of the rail frame (R131, Table 7-1) -/

/-- The first position of the part that bit position b lies in. -/
def partStart (b : Nat) : Nat :=
  if b < 12 then 0 else if b < 24 then 12 else if b < 184 then 24 + 10 * ((b - 24) / 10) else 184

/-- The first position of the part after the one that bit position b lies in; 200 ends the frame. -/
def partEnd (b : Nat) : Nat :=
  if b < 12 then 12 else if b < 24 then 24 else if b < 184 then 34 + 10 * ((b - 24) / 10) else 200

/-- The word counter (R133): the words begun in the frame, 0 in the sync, 1 in the broadcast word, c + 1 in the slot of
car c and 17 in the quiet window; 0 before the first frame (log 16). -/
def Sequencer.wordCounter (q : Sequencer) : Nat :=
  let b := q.bitCounter.val
  if b < 12 then 0 else if b < 24 then 1 else if b < 184 then 2 + (b - 24) / 10 else 17

/-- The level of RDO in the bit period being sent; idle, low, outside the sync and the words (R133). -/
def Sequencer.rdoLevel (q : Sequencer) : Bool :=
  q.rdo.getD (q.bitCounter.val - partStart q.bitCounter.val) false

/-- Whether the millisecond of position p of the frame being sent has come: a frame begins 5 ms before the next, and 40 bit
periods fill each millisecond (R131; log 3). -/
def Sequencer.reaches (q : Sequencer) (p : Nat) : Bool := reached q.trackTime (addMs (q.nextFrame - 5) (p / 40))

/-- Whether the part that begins at position p is due: a frame is being sent, the part before it is the one being sent, and
its millisecond has come (R131; log 16). -/
def Sequencer.partDue (q : Sequencer) (p : Nat) : Bool :=
  q.running && partEnd q.bitCounter.val == p && q.reaches p

end Sys2Proof.Machine
end

