-- ==== Sys2Proof/Machine/StoreWriter.lean ====
section
/-! DEFINITION. Bind Store (08): rows, the writer and its commits, STORE SAVE and STWE. -/

namespace Sys2Proof.Machine

/-! ## Rows and entries (R142) -/

/-- The car or the marshal entry that a row belongs to. -/
def entryOfRow (r : RowId) : Holder :=
  if h : r.val < 16 then .car ⟨r.val, h⟩ else .marshal ⟨r.val - 16, by omega⟩

/-- Row c of car c, counted from 0. -/
def rowOfCar (c : CarId) : RowId := ⟨c.val, by omega⟩

/-- Row 16 + m of marshal entry m, counted from 0. -/
def rowOfMarshal (m : MarshalId) : RowId := ⟨16 + m.val, by omega⟩

/-- Whether a row is a marshal row, 17..20. -/
def isMarshalRow (r : RowId) : Bool := 16 ≤ r.val

/-- Whether an identity of a row is one, or EMPTY. -/
def storedIdentityOk (i : Option Ident) : Bool := i.all fun x => x != 0 && x != 0xFFFF

/-- Whether a content lies within the values of R142 for row r. -/
def contentInRange (r : RowId) : StoreContent → Bool
  | .car identity ceiling permit =>
    !isMarshalRow r && storedIdentityOk identity && decide (ceiling.toNat ≤ 63) && decide (permit.toNat ≤ 1)
  | .marshal identity => isMarshalRow r && storedIdentityOk identity

/-- The identity of a content, none for EMPTY. -/
def storedIdentity : StoreContent → Option Ident
  | .car identity _ _ | .marshal identity => identity

/-- The ceiling and the permit of a content; a marshal row holds neither, and its entry has none. -/
def storedLimits : StoreContent → BitVec 6 × Permit
  | .car _ ceiling permit => (ceiling.setWidth 6, if permit = 1 then .barred else .allowed)
  | .marshal _ => (63, .allowed)

/-- The 8-bit check computed over a content (R142): a free function that never gives the void check. -/
def contentCheck (content : StoreContent) : Byte :=
  let k := (Config.contentCheck content).val
  BitVec.ofNat 8 (if k < Config.voidCheck.toNat then k else k + 1)

/-- The 8-bit check that a row carries. -/
def rowCheck (row : StoreRow) : Byte := row.content.elim Config.voidCheck contentCheck ^^^ row.checkDiff

/-- A row with a content and the check computed over it. -/
def rowOf (content : StoreContent) : StoreRow := { content := some content, checkDiff := 0 }

/-- A row without a content, with the check that agrees with none. -/
def voidRow : StoreRow := { content := none, checkDiff := 0 }

/-- The content of a VALID row: its check agrees and it is in range; none for an INVALID row. -/
def State.validRow (s : State) (r : RowId) : Option StoreContent :=
  let row := s.store.rows[r]
  if row.checkDiff = 0 then row.content.filter (contentInRange r) else none

/-- The store mark of a row's entry. -/
def State.entryMark (s : State) (r : RowId) : Mark :=
  match entryOfRow r with
  | .car c => s.binding.bindings[c].mark
  | .marshal m => s.binding.marshals[m].mark

/-- The revision of a row's entry. -/
def State.entryRevision (s : State) (r : RowId) : Byte :=
  match entryOfRow r with
  | .car c => s.binding.bindings[c].revision
  | .marshal m => s.binding.marshals[m].revision

/-- Set the store mark of a row's entry; this is no change of the entry (R41, R144). -/
def State.setMark (s : State) (r : RowId) (mark : Mark) : State :=
  match entryOfRow r with
  | .car c =>
    let bindings := modAt s.binding.bindings c fun b => { b with mark := mark }
    { s with binding := { s.binding with bindings := bindings } }
  | .marshal m =>
    let marshals := modAt s.binding.marshals m fun e => { e with mark := mark }
    { s with binding := { s.binding with marshals := marshals } }

/-! ## Commits (R143, R144) -/

/-- The snapshot of a row's entry, for a commit whose first step ends 2 ms from now. -/
def State.snapshot (s : State) (r : RowId) (origin : Origin) : Commit :=
  let stepEnd := addMs s.now 2
  match entryOfRow r with
  | .car c =>
    let b := s.binding.bindings[c]
    Commit.mk r (.car (b.held.map (·.identity)) (b.ceiling.setWidth 8) b.permit.byte) b.revision origin stepEnd
  | .marshal m =>
    let e := s.binding.marshals[m]
    Commit.mk r (.marshal e.identity) e.revision origin stepEnd

/-- Rewrite the writer. -/
def State.setWriter (s : State) (w : Writer) : State := { s with store := { s.store with writer := w } }

/-- Rewrite one row. -/
def State.setRow (s : State) (r : RowId) (row : StoreRow) : State :=
  { s with store := { s.store with rows := modAt s.store.rows r fun _ => row } }

/-- Step 1 of a commit: the snapshot, the row INVALID with its content gone and the void check, the writer
INVALIDATING. -/
def State.startCommit (s : State) (r : RowId) (origin : Origin) : State :=
  (s.setRow r voidRow).setWriter (.invalidating (s.snapshot r origin))

/-- The STORE_DONE notice of a SAVE commit; an AUTO commit offers none (R146). -/
def State.storeDone (s : State) (c : Commit) (outcome : StoreOutcome) : State :=
  match c.origin with
  | .auto => s
  | .save p => s.offerTo p (.storeDone c.row outcome)

/-- Step 3 of a commit: the row takes the snapshot, the mark becomes CLEAN if the revision has not moved, the writer
becomes IDLE. -/
def State.completeCommit (s : State) (c : Commit) : State :=
  let unchanged := s.entryRevision c.row == c.revision
  let s := s.setRow c.row (rowOf c.content)
  let s := if unchanged then s.setMark c.row .clean else s
  (s.setWriter .idle).storeDone c (if unchanged then .clean else .dirty)

/-- Whether the writer may choose a row: its entry is DIRTY, and STWE is high for a marshal row (R143, R145). -/
def State.eligible (s : State) (r : RowId) : Bool :=
  s.entryMark r == .dirty && (!isMarshalRow r || s.store.stwe)

/-- The writer's choice: the lowest-numbered row that it may commit, with auto-save ON and the start-up ended (R143,
log 6). -/
def State.autoChoice (s : State) : Option RowId :=
  if s.store.writer = .idle ∧ s.course.settings.autoSave ∧ ¬ s.seq.starting then firstIdx 20 s.eligible
  else none

/-- The writer chooses, if it may: an AUTO commit of the row begins. -/
def State.chooseCommit (s : State) : State := s.autoChoice.elim s (s.startCommit · .auto)

/-! ## STORE SAVE and STWE (R145, R146) -/

/-- STORE SAVE with its tests in order (R146). -/
def State.reqStoreSave (s : State) (p : PortId) (row : Byte) : State :=
  s.reserved p fun s =>
    match numOf 20 row with
    | none => s.refuse p (.range 1)
    | some r =>
      if isMarshalRow r && !s.store.stwe then s.refuse p .storeProtected
      else if s.store.writer ≠ .idle then s.refuse p .storeBusy
      else (s.startCommit r (.save p)).done p []

/-- The commit the writer holds, in either step. -/
def Writer.commit : Writer → Option Commit
  | .idle => none
  | .invalidating c | .writing c => some c

/-- A commit of a marshal row is cut: the row stays INVALID, the entry's mark DIRTY, the writer becomes IDLE (R145).
An entry that was CLEAN when STORE SAVE began is DIRTY after the cut (log 25). -/
def State.cutCommit (s : State) (c : Commit) : State :=
  if isMarshalRow c.row then ((s.setMark c.row .dirty).setWriter .idle).storeDone c .cut else s

/-! ## Commands -/

/-- STORE_SAVE (R146). -/
def execStoreSave (p : PortId) (row : Byte) (s : State) : Host.Outcome State Fault Refusal :=
  .next (s.request p (·.reqStoreSave p row))

/-- WRITER_COMMIT_START (R143): no choice to make, no change (log 2, 8). -/
def execWriterCommitStart (s : State) : Host.Outcome State Fault Refusal := .next s.chooseCommit

/-- WRITER_STEP_END (R144 step 2): not due, no change (log 2, 3). -/
def execWriterStepEnd (s : State) : Host.Outcome State Fault Refusal :=
  match s.store.writer with
  | .invalidating c =>
    if reached s.now c.stepEnd then .next (s.setWriter (.writing { c with stepEnd := addMs c.stepEnd 3 }))
    else .next s
  | .idle => .next s
  | .writing _ => .next s

/-- COMMIT_COMPLETION (R144 step 3): not due, no change (log 2, 3). -/
def execCommitCompletion (s : State) : Host.Outcome State Fault Refusal :=
  match s.store.writer with
  | .writing c => if reached s.now c.stepEnd then .next (s.completeCommit c) else .next s
  | .idle => .next s
  | .invalidating _ => .next s

/-- STWE_FALL (R145): a level that is low already does not fall (log 2). -/
def execStweFall (s : State) : Host.Outcome State Fault Refusal :=
  if s.store.stwe then
    let s := { s with store := { s.store with stwe := false } }
    .next (s.store.writer.commit.elim s s.cutCommit)
  else .next s

/-- STWE_RISE (R143): DIRTY marshal entries are eligible from now on; the writer's choice is WRITER_COMMIT_START
(log 8). -/
def execStweRise (s : State) : Host.Outcome State Fault Refusal :=
  .next { s with store := { s.store with stwe := true } }

end Sys2Proof.Machine
end

