-- ==== Sys2Proof/Machine/Links.lean ====
section
/-! DEFINITION. Station Links (09): transactions, request frames, port requests and staging. -/

namespace Sys2Proof.Machine

/-! ## Port requests (R152, R160 to R163) -/

/-- POLL replies DONE and changes nothing else (R152). -/
def State.reqPoll (s : State) (p : PortId) : State := s.done p []

/-- TAKE (R160): the head notice whole, then the level left; the IDLE notice and level 0 from an empty queue. -/
def State.reqTake (s : State) (p : PortId) : State :=
  match s.ports[p].queue with
  | [] => s.done p (idleEntry ++ [0])
  | n :: rest =>
    (s.modPort p fun pt => { pt with queue := rest }).done p (n.entry ++ [natByte rest.length])

/-- PORT STATUS (R162). -/
def State.reqPortStatus (s : State) (p : PortId) : State :=
  let pt := s.ports[p]
  let report :=
    [pt.level, pt.attentionLevel, pt.shedLevel, pt.shedCount, pt.lostCount, pt.linkErrors].map natByte
  (s.modPort p fun pt => { pt with shedCount := 0, lostCount := 0, linkErrors := 0 }).done p report

/-- The places of PORT SET whose value is outside 1..32 (R161). -/
def portSetPlaces (attentionLevel shedLevel : Byte) : List Byte :=
  (if inRange 1 32 attentionLevel then [] else [1]) ++ (if inRange 1 32 shedLevel then [] else [2])

/-- PORT SET (R161). -/
def State.reqPortSet (s : State) (p : PortId) (attentionLevel shedLevel : Byte) : State :=
  if (portSetPlaces attentionLevel shedLevel).isEmpty then
    (s.modPort p fun pt =>
      { pt with attentionLevel := attentionLevel.toNat, shedLevel := shedLevel.toNat }).done p []
  else s.refuseRange p (portSetPlaces attentionLevel shedLevel)

/-- PORT RESET (R163): the levels and the rights are kept; the reply buffer holds IDLE. -/
def Port.portReset (pt : Port) : Port :=
  { Port.reset pt.raceControl with
    selLow := pt.selLow, discarded := pt.discarded, shiftFrame := pt.shiftFrame, attentionLevel := pt.attentionLevel,
    shedLevel := pt.shedLevel }

/-- PORT RESET (R163). -/
def State.reqPortReset (s : State) (p : PortId) : State := s.modPort p Port.portReset

/-! ## Staging (R155 to R158) -/

/-- Rewrite a port's staging. -/
def State.setStaging (s : State) (p : PortId) (staging : Option Staging) : State :=
  s.modPort p fun pt => { pt with staging := staging }

/-- SELECT (R155). -/
def State.reqSelect (s : State) (p : PortId) (table index : Byte) : State :=
  match recordRefOf table index with
  | .error place => s.refuse p (.range place)
  | .ok ref =>
    let staging := Staging.mk .unconditional ref ref.defaultImage 1
    (s.modPort p fun pt => { pt with staging := some staging, cursor := some ref }).done p []

/-- FETCH (R156). -/
def State.reqFetch (s : State) (p : PortId) : State :=
  match s.ports[p].cursor with
  | none => s.refuse p .noStaging
  | some ref =>
    let image := s.recordImage ref
    let staging := Staging.mk (.conditional (s.revisionOf ref)) ref image 1
    (s.modPort p fun pt => { pt with staging := some staging, cursor := some ref.next }).done p
      ([ref.table, ref.index] ++ image)

/-- The record is replaced, or the table's own refusal given (test 5 of R158). A HANDSET or CAR record is refused before
(test 1). -/
def State.applyRecord (s : State) (p : PortId) (ref : RecordRef) (image : List Byte) : State :=
  match ref with
  | .zone z => s.applyZone p z image
  | .switch w => s.applySwitch p w image
  | .sensor n => s.applySensor p n image
  | .binding c => s.applyBinding p c image
  | .marshal m => s.applyMarshal p m image
  | .settings => s.applySettings p image
  | .handset _ => s.refuse p .readOnly
  | .car _ => s.refuse p .readOnly

/-- Whether a staged revision is not the record's (test 4 of R158). -/
def State.staleAgainst (s : State) (st : Staging) : Bool :=
  match st.mode with
  | .unconditional => false
  | .conditional revision => revision != s.revisionOf st.ref

/-- An apply of a staged record, with the tests of R158 in order; the staging is EMPTY whatever the outcome. -/
def State.applyStaged (s : State) (p : PortId) (st : Staging) : State :=
  let s := s.setStaging p none
  if st.ref.readOnly then s.refuse p .readOnly
  else if ¬ s.hasRights p then s.refuse p .notPermitted
  else if st.ref.isGeometry ∧ s.geo.phase = .run then s.refuse p .phase
  else if s.staleAgainst st then s.refuse p .staleRecord
  else s.applyRecord p st.ref st.image

/-- APPLY (R158). -/
def State.reqApply (s : State) (p : PortId) : State :=
  match s.ports[p].staging with
  | none => s.refuse p .noStaging
  | some st => s.applyStaged p st

/-- PUT (R157). The field number of bytes that run on past the last writable field is a free value (log 9). -/
def State.reqPut (s : State) (p : PortId) (values : List Byte) : State :=
  match s.ports[p].staging with
  | none => s.refuse p .noStaging
  | some st =>
    let sizes := st.ref.fieldSizes
    let emptied := s.setStaging p none
    if st.ref.readOnly then emptied.refuse p .readOnly
    else match putWalk (sizes.drop (st.field - 1)) st.field values.length with
      | .partWay field => emptied.refuse p (.range (natByte field))
      | .overrun =>
        { emptied with freeCount := s.freeCount + 1 }.refuse p (.range (Config.overrunField s.freeCount))
      | .upTo field =>
        let st := Staging.mk st.mode st.ref (overwrite st.image (fieldOffset sizes st.field) values) field
        if sizes.length < field then s.applyStaged p st
        else (s.setStaging p (some st)).done p [natByte field]

/-! ## Request frames (R153) -/

/-- A request that has passed all five tests, by its code and payload (Table 10-3). -/
def State.carryOut (s : State) (p : PortId) (name : RequestName) (payload : List Byte) : State :=
  let b := byteAt payload
  match name with
  | .poll => s.reqPoll p
  | .take => s.reqTake p
  | .portStatus => s.reqPortStatus p
  | .portSet => s.reqPortSet p (b 0) (b 1)
  | .portReset => s.reqPortReset p
  | .select => s.reqSelect p (b 0) (b 1)
  | .fetch => s.reqFetch p
  | .put => s.reqPut p payload
  | .apply => s.reqApply p
  | .reportHandset => s.reqReportHandset p (wordAt payload 0) (b 2) (b 3) (b 4) (b 5) (b 6)
  | .reportCrossing => s.reqReportCrossing p (b 0) (b 1) (b 2)
  | .reportSwitch => s.reqReportSwitch p (b 0) (b 1) (b 2)
  | .start => s.reqStart p
  | .stop => s.reqStop p
  | .caution => s.reqCaution p
  | .green => s.reqGreen p
  | .pitOpen => s.reqPit p true
  | .pitClose => s.reqPit p false
  | .zoneLock => s.reqZoneLock p (b 0) (b 1)
  | .trackClear => s.reqTrackClear p
  | .switchDisable => s.reqSwitch p .disable (b 0)
  | .switchEnable => s.reqSwitch p .enable (b 0)
  | .switchClear => s.reqSwitch p .clear (b 0)
  | .layoutRun => s.reqLayoutRun p
  | .layoutEdit => s.reqLayoutEdit p
  | .openPairing => s.reqOpenPairing p (b 0)
  | .closePairing => s.reqClosePairing p
  | .release => s.reqRelease p (b 0)
  | .storeSave => s.reqStoreSave p (b 0)

/-- Rewrite a port's check-error flag. -/
def State.setCheckError (s : State) (p : PortId) (flag : Bool) : State :=
  s.modPort p fun pt => { pt with checkError := flag }

/-- Tests 4 and 5 and the request itself, for a frame that has passed test 3. -/
def State.judgeRequest (s : State) (p : PortId) (code : Byte) (payload : List Byte) : State :=
  let s := s.setCheckError p false
  match requestRow code with
  | none => s.refuse p .unknownRequest
  | some (name, least, greatest) =>
    if payload.length < least ∨ greatest < payload.length then s.frameError p else s.carryOut p name payload

/-- CHECK_ERROR: the flag is set, and the error counted (test 3). -/
def State.checkErrorReply (s : State) (p : PortId) : State :=
  ((s.setCheckError p true).countLinkError p).reply p .checkError

/-- The five tests of R153 on the bytes gathered in one transaction; fill bytes are dropped. -/
def State.judgeFrame (s : State) (p : PortId) (bytes : List Byte) : State :=
  if s.seq.starting then s.refuse p .starting
  else
    let length := (byteAt bytes 1).toNat
    let body := bytes.take (length + 2)
    if bytes.length < 3 ∨ 16 < length ∨ bytes.length < length + 3 then s.frameError p
    else if byteAt bytes (length + 2) ≠ crc8 body then s.checkErrorReply p
    else s.judgeRequest p (byteAt bytes 0) (body.drop 2)

/-- The request frame that a request row stands for: its port, code and payload (Table 10-3). REPORT_SWITCH_* are one
request by its report kind. Rows that are no request have none. -/
def requestOf : Instr → Option (PortId × Byte × List Byte)
  | .poll p => some (p, 0x01, [])
  | .take p => some (p, 0x02, [])
  | .portStatus p => some (p, 0x03, [])
  | .portSet p attentionLevel shedLevel => some (p, 0x04, [attentionLevel, shedLevel])
  | .portReset p => some (p, 0x05, [])
  | .select p table index => some (p, 0x10, [table, index])
  | .fetch p => some (p, 0x11, [])
  | .put p values => some (p, 0x12, values)
  | .apply p => some (p, 0x13, [])
  | .reportHandset p identity count throttle code battery strength =>
    some (p, 0x20, bytes2 identity ++ [count, throttle, code, battery, strength])
  | .reportCrossing p sensor car age => some (p, 0x21, [sensor, car, age])
  | .reportSwitchThrown p switch position => some (p, 0x22, [switch, 0, position])
  | .reportSwitchReturned p switch position => some (p, 0x22, [switch, 1, position])
  | .reportSwitchJammed p switch position => some (p, 0x22, [switch, 2, position])
  | .reportSwitchUnknownKind p switch kind position => some (p, 0x22, [switch, kind, position])
  | .start p => some (p, 0x30, [])
  | .stop p => some (p, 0x31, [])
  | .caution p => some (p, 0x32, [])
  | .green p => some (p, 0x33, [])
  | .pitOpen p => some (p, 0x34, [])
  | .pitClose p => some (p, 0x35, [])
  | .zoneLock p zone lock => some (p, 0x36, [zone, lock])
  | .trackClear p => some (p, 0x37, [])
  | .switchDisable p switch => some (p, 0x38, [switch])
  | .switchEnable p switch => some (p, 0x39, [switch])
  | .switchClear p switch => some (p, 0x3A, [switch])
  | .layoutRun p => some (p, 0x3B, [])
  | .layoutEdit p => some (p, 0x3C, [])
  | .openPairing p seconds => some (p, 0x40, [seconds])
  | .closePairing p => some (p, 0x41, [])
  | .release p car => some (p, 0x42, [car])
  | .storeSave p row => some (p, 0x43, [row])
  | .hardReset _ | .trackTimeTick | .restore | .restoreEnd | .selnFall _ | .requestFrame _ _
  | .staleExpiry _ | .handsetLostExpiry _ | .pitExitRecheck _ | .actuationDeadline _
  | .holdDeadline _ | .restoringActuationDeadline _ | .intentExpiry _ | .conflictCapEnd _
  | .stall _ | .offerExpiry _ | .pairingWindowExpiry | .lampExpiry | .writerCommitStart
  | .writerStepEnd | .commitCompletion | .stweFall | .stweRise | .railFrameStart
  | .broadcastWord | .carWord _ | .quietWindow => none

/-! ## Commands -/

/-- SELN_FALL (R152): the reply frame of this moment is composed, to be shifted out. -/
def execSelnFall (p : PortId) (s : State) : Host.Outcome State Fault Refusal :=
  .next (s.modPort p fun pt => { pt with selLow := true, discarded := false, shiftFrame := s.replyFrame p })

/-- REQUEST_FRAME (R152, R153): the rise of SELn; no whole byte gathered, no request taken. -/
def execRequestFrame (p : PortId) (sdi : List Bool) (s : State) : Host.Outcome State Fault Refusal :=
  .next (s.riseOfSel p fun s =>
    match gatherBytes sdi with
    | [] => s
    | b :: rest => s.judgeFrame p (b :: rest))

/-- POLL (R152). -/
def execPoll (p : PortId) (s : State) : Host.Outcome State Fault Refusal := .next (s.request p (·.reqPoll p))

/-- TAKE (R160). -/
def execTake (p : PortId) (s : State) : Host.Outcome State Fault Refusal := .next (s.request p (·.reqTake p))

/-- PORT_STATUS (R162). -/
def execPortStatus (p : PortId) (s : State) : Host.Outcome State Fault Refusal :=
  .next (s.request p (·.reqPortStatus p))

/-- PORT_SET (R161). -/
def execPortSet (p : PortId) (attentionLevel shedLevel : Byte) (s : State) : Host.Outcome State Fault Refusal :=
  .next (s.request p (·.reqPortSet p attentionLevel shedLevel))

/-- PORT_RESET (R163). -/
def execPortReset (p : PortId) (s : State) : Host.Outcome State Fault Refusal :=
  .next (s.request p (·.reqPortReset p))

/-- SELECT (R155). -/
def execSelect (p : PortId) (table index : Byte) (s : State) : Host.Outcome State Fault Refusal :=
  .next (s.request p (·.reqSelect p table index))

/-- FETCH (R156). -/
def execFetch (p : PortId) (s : State) : Host.Outcome State Fault Refusal := .next (s.request p (·.reqFetch p))

/-- PUT (R157). A length outside 0..16 fails test 2 of R153 and an empty PUT test 5 (R153, 10.2; log 24). -/
def execPut (p : PortId) (values : List Byte) (s : State) : Host.Outcome State Fault Refusal :=
  .next (s.riseOfSel p fun s =>
    if s.seq.starting then s.refuse p .starting
    else if 16 < values.length then s.frameError p
    else
      let s := s.setCheckError p false
      if values.isEmpty then s.frameError p else s.reqPut p values)

/-- APPLY (R158). -/
def execApply (p : PortId) (s : State) : Host.Outcome State Fault Refusal := .next (s.request p (·.reqApply p))

end Sys2Proof.Machine
end

