-- ==== Sys2Proof/Machine/Rail.lean ====
section
/-! DEFINITION. Rail Data Frame (07): frames, words and bit periods. The parts of a frame are commands, the bit periods
inside a part are steps of an empty queue (log 16). -/

namespace Sys2Proof.Machine

/-- A part of the frame begins: its first bit position, its bits on RDO, the level of WIN (Table 7-1). -/
def State.sendPart (s : State) (position : Fin 200) (bits : List Bool) (win : Bool) : State :=
  { s with seq := { s.seq with bitCounter := position, rdo := bits, win := win } }

/-- A frame begins with its sync; WIN goes low (R131, R132, R134). -/
def State.beginFrame (s : State) (frame : Fin 8) (next : Time) : State :=
  ({ s with seq := { s.seq with frameCounter := frame, nextFrame := next } }).sendPart 0 (syncBits frame) false

/-- The first position of the word of car c (Table 7-1). -/
def carPosition (c : CarId) : Fin 200 := ⟨24 + 10 * c.val, by omega⟩

/-! ## The car word (R137, R138) -/

/-- The terms that bound the running speed of a car (R138). -/
def State.speedTerms (s : State) (c : CarId) (throttle : BitVec 6) : List Nat :=
  let x := s.course.settings
  let inPitLane := (s.tracker.cars[c].placed).any fun pl => s.geo.zones[pl.zone].lane == 4
  [throttle.toNat, s.binding.bindings[c].ceiling.toNat] ++
    (if s.course.course = .caution then [x.cautionCap.toNat] else []) ++
    (if inPitLane then [x.pitLimit.toNat] else []) ++
    (s.lane.conflictCaps[c]).toList.map (·.value.toNat) ++
    (s.lane.busyCaps[c]).toList.map (·.value.toNat) ++
    (s.lane.pitHolds[c]).toList.map fun _ => 0

/-- The running speed: the least of its terms, of which the throttle is one. -/
def State.runningSpeed (s : State) (c : CarId) (throttle : BitVec 6) : BitVec 6 :=
  BitVec.ofNat 6 ((s.speedTerms c throttle).foldl min 63)

/-- The link state and throttle of the handset record found by an identity. -/
def State.driver (s : State) (identity : Ident) : Option (LinkState × BitVec 6) :=
  ((s.handsetOf identity).bind fun h => s.handsets.records[h]).map fun r => (r.link, r.throttle)

/-- Speed and brake of a car word (Table 7-3). A BOUND car whose handset has no record or is LOST, which no run
reaches, is braked (log 19). -/
def State.carCommand (s : State) (c : CarId) : BitVec 6 × Bool :=
  if s.courseHolds then (0, true)
  else match s.binding.bindings[c].held with
    | none => (0, true)
    | some held =>
      match held.state with
      | .reserved | .suspended => (0, true)
      | .bound =>
        match s.driver held.identity with
        | some (.live, throttle) => (s.runningSpeed c throttle, s.runningSpeed c throttle == 0)
        | some (.acquiring, _) | some (.stale, _) => (0, false)
        | some (.lost, _) | none => (0, true)

/-! ## Commands. Each begins its part of the frame when the part is due, in the order of Table 7-1; else it changes nothing
(log 2) -/

/-- RAIL_FRAME_START (R131): in the quiet window, 5 ms after the start of the frame before (log 3). -/
def execRailFrameStart (s : State) : Host.Outcome State Fault Refusal :=
  if s.seq.running && partEnd s.seq.bitCounter.val == 200 && reached s.now s.seq.nextFrame then
    .next (s.beginFrame (s.seq.frameCounter + 1) (addMs s.seq.nextFrame 5))
  else .next s

/-- BROADCAST_WORD (R136), at position 12. -/
def execBroadcastWord (s : State) : Host.Outcome State Fault Refusal :=
  if s.seq.partDue 12 then
    .next (s.sendPart 12
      (broadcastBits s.seq.frameCounter s.course.course s.course.lampCount s.course.pitOpen) false)
  else .next s

/-- CAR_WORD (R137): the lamp bit is on while the car holds an intent. -/
def execCarWord (c : CarId) (s : State) : Host.Outcome State Fault Refusal :=
  if s.seq.partDue (carPosition c).val then
    .next (s.sendPart (carPosition c)
      (carBits (s.carCommand c).1 (s.carCommand c).2 s.lane.intents[c].isSome) false)
  else .next s

/-- QUIET_WINDOW (R134): from position 184 RDO is low and WIN high. -/
def execQuietWindow (s : State) : Host.Outcome State Fault Refusal :=
  if s.seq.partDue 184 then .next (s.sendPart 184 [] true) else .next s

/-! ## The bit periods inside a part -/

/-- One bit period (R131): the bit counter counts on inside the part being sent, no further than the millisecond has come;
the first bit period of a part is its command's (log 1, 16). -/
def State.bitPeriod (s : State) : State :=
  let p := s.seq.bitCounter.val + 1
  if h : p < 200 then
    if s.seq.running && decide (p < partEnd s.seq.bitCounter.val) && s.seq.reaches p then
      { s with seq := { s.seq with bitCounter := ⟨p, h⟩ } }
    else s
  else s

end Sys2Proof.Machine
end

