-- ==== Sys2Proof/Machine/Startup.lean ====
section
/-! DEFINITION. Hard reset, track time and the start-up (06 R114, 07 R130 and R133, 08 R147 to R150). -/

namespace Sys2Proof.Machine

/-! ## Hard reset -/

/-- The race-control rights that the straps give: with every strap low, port 0 alone (R114). -/
def strapRights (rcs : BitVec 4) (p : PortId) : Bool := if rcs = 0 then p == 0 else rcs.getLsbD p.val

/-- HARD_RESET (R130): a whole pulse of RESET_N. Every block takes its reset state and the straps are sampled; the rows
and STWE are left, and a row whose commit is cut stays INVALID (R142, R147; log 4). A transaction in progress is discarded:
SELn stays as it is, and the transaction's rise takes no request (R152, R164). -/
def execHardReset (rcs : BitVec 4) (s : State) : Host.Outcome State Fault Refusal :=
  .next { State.reset with
    store := { s.store with writer := .idle },
    ports := mapAll s.ports fun p pt =>
      { Port.reset (strapRights rcs p) with selLow := pt.selLow, discarded := pt.selLow },
    rcs := rcs, freeCount := s.freeCount, pending := s.pending }

/-- TRACK_TIME_TICK (R130): one millisecond. What falls due is taken by its own command (log 3). -/
def execTrackTimeTick (s : State) : Host.Outcome State Fault Refusal :=
  .next { s with seq := { s.seq with trackTime := s.seq.trackTime + 1 } }

/-! ## The restore (R148, R149) -/

/-- The entry that holds an identity, a marshal entry before a car. -/
def State.holderOfIdentity (s : State) (identity : Ident) : Option Holder :=
  ((s.marshalOf identity).map .marshal).or ((s.carOf identity).map .car)

/-- The alert of a row that is lost or contested; a row that restores its content has none. -/
def State.restoreAlert (s : State) (r : RowId) : Option NoticeBody :=
  match s.validRow r with
  | some content => (storedIdentity content).bind fun i => (s.holderOfIdentity i).map (.restoreDuplicate r i)
  | none => some (.storeRowLost r)

/-- One marshal row (R148); the revision stays. -/
def State.restoreMarshal (s : State) (m : MarshalId) : State :=
  let r := rowOfMarshal m
  let set (s : State) (identity : Option Ident) (mark : Mark) : State :=
    let marshals := modAt s.binding.marshals m fun e => { e with identity := identity, mark := mark }
    { s with binding := { s.binding with marshals := marshals } }
  match s.restoreAlert r with
  | some alert => (set s none .dirty).offerRaceControl alert
  | none => set s ((s.validRow r).bind storedIdentity) .clean

/-- One car row (R149); the revision stays. -/
def State.restoreCar (s : State) (c : CarId) : State :=
  let r := rowOfCar c
  let set (s : State) (content : StoreContent) (mark : Mark) : State :=
    let held := (storedIdentity content).map fun i => Held.mk i .restored .reserved
    let limits := storedLimits content
    { s with binding := { s.binding with bindings := modAt s.binding.bindings c fun b =>
      { b with held := held, ceiling := limits.1, permit := limits.2, mark := mark } } }
  match s.restoreAlert r with
  | some alert => (set s (deliveredContent r) .dirty).offerRaceControl alert
  | none => set s ((s.validRow r).getD (deliveredContent r)) .clean

/-- The restore reads rows 17..20 and then rows 1..16. -/
def State.restoreRows (s : State) : State :=
  (List.finRange 16).foldl State.restoreCar ((List.finRange 4).foldl State.restoreMarshal s)

/-- RESTORE (8.6): once after each hard reset; at any other time, no change (log 2, 6). -/
def execRestore (s : State) : Host.Outcome State Fault Refusal :=
  if s.seq.starting && !s.seq.restored then
    let s := s.restoreRows
    .next { s with seq := { s.seq with restored := true } }
  else .next s

/-- RESTORE_END (R150): from track time 4 on requests are taken, the first frame begins and the writer makes its first
choice; not due, or before the restore, no change (log 2, 6, 7). -/
def execRestoreEnd (s : State) : Host.Outcome State Fault Refusal :=
  if s.seq.starting && s.seq.restored && reached s.now 4 then
    let s := { s with seq := { s.seq with starting := false, running := true } }
    .next (s.beginFrame 0 (addMs s.seq.nextFrame 5)).chooseCommit
  else .next s

end Sys2Proof.Machine
end

