-- ==== Sys2Proof/Machine/Dispatch.lean ====
section
/-! DEFINITION. The meaning of every command: one arm per row of spec/opcode_table.json. -/

namespace Sys2Proof.Machine

def exec (i : Instr) (s : State) : Host.Outcome State Fault Refusal :=
  match i with
  | .hardReset rcs => Sys2Proof.Machine.execHardReset rcs s
  | .trackTimeTick => Sys2Proof.Machine.execTrackTimeTick s
  | .restore => Sys2Proof.Machine.execRestore s
  | .restoreEnd => Sys2Proof.Machine.execRestoreEnd s
  | .selnFall p => Sys2Proof.Machine.execSelnFall p s
  | .requestFrame p sdi => Sys2Proof.Machine.execRequestFrame p sdi s
  | .poll p => Sys2Proof.Machine.execPoll p s
  | .take p => Sys2Proof.Machine.execTake p s
  | .portStatus p => Sys2Proof.Machine.execPortStatus p s
  | .portSet p attentionLevel shedLevel => Sys2Proof.Machine.execPortSet p attentionLevel shedLevel s
  | .portReset p => Sys2Proof.Machine.execPortReset p s
  | .select p table index => Sys2Proof.Machine.execSelect p table index s
  | .fetch p => Sys2Proof.Machine.execFetch p s
  | .put p values => Sys2Proof.Machine.execPut p values s
  | .apply p => Sys2Proof.Machine.execApply p s
  | .reportHandset p identity count throttle code battery strength => Sys2Proof.Machine.execReportHandset p identity count throttle code battery strength s
  | .staleExpiry h => Sys2Proof.Machine.execStaleExpiry h s
  | .handsetLostExpiry h => Sys2Proof.Machine.execHandsetLostExpiry h s
  | .reportCrossing p sensor car age => Sys2Proof.Machine.execReportCrossing p sensor car age s
  | .pitExitRecheck w => Sys2Proof.Machine.execPitExitRecheck w s
  | .reportSwitchThrown p switch position => Sys2Proof.Machine.execReportSwitchThrown p switch position s
  | .reportSwitchReturned p switch position => Sys2Proof.Machine.execReportSwitchReturned p switch position s
  | .reportSwitchJammed p switch position => Sys2Proof.Machine.execReportSwitchJammed p switch position s
  | .actuationDeadline w => Sys2Proof.Machine.execActuationDeadline w s
  | .holdDeadline w => Sys2Proof.Machine.execHoldDeadline w s
  | .restoringActuationDeadline w => Sys2Proof.Machine.execRestoringActuationDeadline w s
  | .intentExpiry c => Sys2Proof.Machine.execIntentExpiry c s
  | .conflictCapEnd c => Sys2Proof.Machine.execConflictCapEnd c s
  | .stall c => Sys2Proof.Machine.execStall c s
  | .offerExpiry c => Sys2Proof.Machine.execOfferExpiry c s
  | .pairingWindowExpiry => Sys2Proof.Machine.execPairingWindowExpiry s
  | .lampExpiry => Sys2Proof.Machine.execLampExpiry s
  | .start p => Sys2Proof.Machine.execStart p s
  | .stop p => Sys2Proof.Machine.execStop p s
  | .caution p => Sys2Proof.Machine.execCaution p s
  | .green p => Sys2Proof.Machine.execGreen p s
  | .pitOpen p => Sys2Proof.Machine.execPitOpen p s
  | .pitClose p => Sys2Proof.Machine.execPitClose p s
  | .zoneLock p zone lock => Sys2Proof.Machine.execZoneLock p zone lock s
  | .trackClear p => Sys2Proof.Machine.execTrackClear p s
  | .switchDisable p switch => Sys2Proof.Machine.execSwitchDisable p switch s
  | .switchEnable p switch => Sys2Proof.Machine.execSwitchEnable p switch s
  | .switchClear p switch => Sys2Proof.Machine.execSwitchClear p switch s
  | .layoutRun p => Sys2Proof.Machine.execLayoutRun p s
  | .layoutEdit p => Sys2Proof.Machine.execLayoutEdit p s
  | .openPairing p seconds => Sys2Proof.Machine.execOpenPairing p seconds s
  | .closePairing p => Sys2Proof.Machine.execClosePairing p s
  | .release p car => Sys2Proof.Machine.execRelease p car s
  | .storeSave p row => Sys2Proof.Machine.execStoreSave p row s
  | .writerCommitStart => Sys2Proof.Machine.execWriterCommitStart s
  | .writerStepEnd => Sys2Proof.Machine.execWriterStepEnd s
  | .commitCompletion => Sys2Proof.Machine.execCommitCompletion s
  | .stweFall => Sys2Proof.Machine.execStweFall s
  | .stweRise => Sys2Proof.Machine.execStweRise s
  | .railFrameStart => Sys2Proof.Machine.execRailFrameStart s
  | .broadcastWord => Sys2Proof.Machine.execBroadcastWord s
  | .carWord c => Sys2Proof.Machine.execCarWord c s
  | .quietWindow => Sys2Proof.Machine.execQuietWindow s
  | .reportSwitchUnknownKind p switch kind position => Sys2Proof.Machine.execReportSwitchUnknownKind p switch kind position s

end Sys2Proof.Machine
end

