-- ==== Sys2Proof/Machine/Step.lean ====
section
/-! DEFINITION. One step: the command at the front of the queue. -/

namespace Sys2Proof.Machine

/-- One step takes the command at the front of the queue and carries it out with the queue's rest. On an empty queue a bit
period of the rail frame passes, and else nothing: the millisecond is TRACK_TIME_TICK's (DESIGN CHOICE, log 1). -/
def step (s : State) : Host.Outcome State Fault Refusal :=
  match s.pending with
  | [] => .next s.bitPeriod
  | c :: rest => exec c { s with pending := rest }

/-- The state with the command that a word spells at the front of its queue; the table gives no row any bits, so no word
spells one. -/
def State.withFetchWord (s : State) (nbits w : Nat) : State :=
  match decodeTableWord nbits w with
  | some c => { s with pending := c :: s.pending }
  | none => s

end Sys2Proof.Machine
end

