-- ==== Sys2Proof/Safety.lean ====
section
/-! DEFINITION. What the statements are written with: the port an answered request leaves, the frame of a link error, and
the invariants of a run. -/

namespace Sys2Proof.Machine

/-! ## Single records rewritten, for the statements -/

def State.putZone (s : State) (z : ZoneId) (x : Zone) : State :=
  { s with geo := { s.geo with zones := modAt s.geo.zones z fun _ => x } }

def State.putSwitchRecord (s : State) (w : SwitchId) (x : Switch) : State :=
  { s with geo := { s.geo with switches := modAt s.geo.switches w fun _ => x } }

def State.putSensor (s : State) (n : SensorId) (x : Sensor) : State :=
  { s with geo := { s.geo with sensors := modAt s.geo.sensors n fun _ => x } }

def State.putSettings (s : State) (x : Settings) : State :=
  { s with course := { s.course with settings := x } }

def State.putCourse (s : State) (course : Course) (lamps : Nat) (next : Option Time) : State :=
  { s with course := { s.course with course := course, lampCount := lamps, nextLamp := next } }

def State.putBinding (s : State) (c : CarId) (x : Binding) : State :=
  { s with binding := { s.binding with bindings := modAt s.binding.bindings c fun _ => x } }

def State.putMarshal (s : State) (m : MarshalId) (x : MarshalEntry) : State :=
  { s with binding := { s.binding with marshals := modAt s.binding.marshals m fun _ => x } }

def State.putOffers (s : State) (offers : List Offer) : State :=
  { s with binding := { s.binding with offers := offers } }

def State.putRecord (s : State) (h : HandsetId) (r : Option Handset) : State :=
  { s with handsets := { s.handsets with records := modAt s.handsets.records h fun _ => r } }

def State.putCar (s : State) (c : CarId) (r : CarRecord) : State :=
  { s with tracker := { s.tracker with cars := modAt s.tracker.cars c fun _ => r } }

def State.putIntent (s : State) (c : CarId) (i : Option Intent) : State :=
  { s with lane := { s.lane with intents := modAt s.lane.intents c fun _ => i } }

def State.putSwitch (s : State) (w : SwitchId) (x : SwitchState) : State :=
  { s with lane := { s.lane with switches := modAt s.lane.switches w fun _ => x } }

def State.putConflictCap (s : State) (c : CarId) (x : Option ConflictCap) : State :=
  { s with lane := { s.lane with conflictCaps := modAt s.lane.conflictCaps c fun _ => x } }

def State.putBusyCap (s : State) (c : CarId) (x : Option BusyCap) : State :=
  { s with lane := { s.lane with busyCaps := modAt s.lane.busyCaps c fun _ => x } }

def State.putPitHold (s : State) (c : CarId) (x : Option SwitchId) : State :=
  { s with lane := { s.lane with pitHolds := modAt s.lane.pitHolds c fun _ => x } }

def State.putRow (s : State) (r : RowId) (x : StoreRow) : State :=
  { s with store := { s.store with rows := modAt s.store.rows r fun _ => x } }

def State.putWriter (s : State) (x : Writer) : State := { s with store := { s.store with writer := x } }

/-! ## Ports -/

/-- What a request that has been taken leaves in its own port: the transaction ended, the check-error flag clear, the reply
in the buffer (R152, R153). -/
def State.answer (s : State) (p : PortId) (r : Reply) : State :=
  { s with ports := modAt s.ports p fun pt =>
    { pt with selLow := false, shiftFrame := [], checkError := false, reply := r } }

/-- What a link error leaves: the transaction ended, the count one higher up to 255, the flag and the reply given, and the
alert when the count goes from 15 to 16 (R153). -/
def State.linkError (s : State) (p : PortId) (flag : Bool) (r : Reply) : State :=
  let counted := { s with ports := modAt s.ports p fun pt =>
    { pt with
      selLow := false, shiftFrame := [], checkError := flag, linkErrors := min (pt.linkErrors + 1) 255, reply := r } }
  if s.ports[p].linkErrors = 15 then counted.offerRaceControl (.linkErrors p 16) else counted

/-- Port p takes requests: the start-up is over (R150), and SELn is not low in a transaction that a hard reset has discarded
(R152). -/
abbrev State.takes (s : State) (p : PortId) : Prop := s.seq.starting = false ∧ (s.ports[p]).discarded = false

/-- What the rise of SELn leaves of a discarded transaction: nothing (R152). -/
def State.discardEnded (s : State) (p : PortId) : State :=
  { s with ports := modAt s.ports p fun pt => { pt with selLow := false, discarded := false, shiftFrame := [] } }

/-- A port as the links leave it: at most 32 notices (9.5), levels 1..32 (R161), counts 0..255 (R162), and a transaction
discarded by a hard reset only while SELn is low, with nothing to shift out (R152). -/
def Port.wf (pt : Port) : Prop :=
  pt.queue.length ≤ 32 ∧ (1 ≤ pt.attentionLevel ∧ pt.attentionLevel ≤ 32) ∧
    (1 ≤ pt.shedLevel ∧ pt.shedLevel ≤ 32) ∧ pt.shedCount ≤ 255 ∧ pt.lostCount ≤ 255 ∧ pt.linkErrors ≤ 255 ∧
    (pt.discarded = true → pt.selLow = true ∧ pt.shiftFrame = [])

def State.portsWf (s : State) : Prop := ∀ p : PortId, (s.ports[p]).wf

/-! ## Cars and lists -/

/-- Every list entry is its car's position record, no list holds a car twice, and every placed car is in the list of its
zone (R65). -/
def State.occupancyOk (s : State) : Prop :=
  (∀ (z : ZoneId) (o : Occupant), o ∈ s.tracker.lists[z] →
    ∃ pl : Placed, s.tracker.cars[o.car].placed = some pl ∧ pl.zone = z ∧ pl.entryStamp = o.entryStamp ∧ pl.way = o.way) ∧
  (∀ z : ZoneId, (s.tracker.lists[z].map (·.car)).Nodup) ∧
  ∀ (c : CarId) (pl : Placed), s.tracker.cars[c].placed = some pl → ∃ o ∈ s.tracker.lists[pl.zone], o.car = c

/-- A car is in a hold list exactly when its PIT_HOLD cap names that switch, no list holds a car twice, and a recheck time
stands exactly beside a list that is not empty (R90, R91, R92). -/
def State.holdsOk (s : State) : Prop :=
  (∀ (w : SwitchId) (c : CarId), (∃ h ∈ (s.switch w).holds, h.car = c) ↔ s.lane.pitHolds[c] = some w) ∧
  (∀ w : SwitchId, ((s.switch w).holds.map (·.car)).Nodup) ∧
  ∀ w : SwitchId, (s.switch w).recheck = none ↔ (s.switch w).holds = []

/-! ## Identities -/

/-- No identity is held twice, by cars, marshal entries or handset records (R19, R45); the bound car and the marshal flag of
a record mirror the bindings and the marshal list (R20); no record is in use during the start-up (R149); and the identity of
a BOUND or SUSPENDED car has a record in use, which for a BOUND car is not LOST (R44). -/
def State.identitiesOk (s : State) : Prop :=
  (∀ (c k : CarId) (a b : Held), s.binding.bindings[c].held = some a → s.binding.bindings[k].held = some b →
    a.identity = b.identity → c = k) ∧
  (∀ (m n : MarshalId) (i : Ident), s.binding.marshals[m].identity = some i →
    s.binding.marshals[n].identity = some i → m = n) ∧
  (∀ (c : CarId) (m : MarshalId) (a : Held), s.binding.bindings[c].held = some a →
    s.binding.marshals[m].identity ≠ some a.identity) ∧
  (∀ (h k : HandsetId) (a b : Handset), s.handsets.records[h] = some a → s.handsets.records[k] = some b →
    a.identity = b.identity → h = k) ∧
  (∀ (h : HandsetId) (r : Handset), s.handsets.records[h] = some r →
    (∀ c : CarId, r.boundCar = some c ↔ ∃ a : Held, s.binding.bindings[c].held = some a ∧ a.identity = r.identity) ∧
    (r.marshal = true ↔ ∃ m : MarshalId, s.binding.marshals[m].identity = some r.identity)) ∧
  (s.seq.starting = true → ∀ h : HandsetId, s.handsets.records[h] = none) ∧
  ∀ (c : CarId) (a : Held), s.binding.bindings[c].held = some a → a.state = .bound ∨ a.state = .suspended →
    ∃ (h : HandsetId) (r : Handset), s.handsets.records[h] = some r ∧ r.identity = a.identity ∧
      (a.state = .bound → r.link ≠ .lost)

/-! ## The course, the offers and the phase -/

/-- The lamp count is 1..5 with a next lamp time in COUNTDOWN, and 0 without one in every other course (R115, R117, R136);
the offer list holds at most four entries, no car twice, and none while the window is CLOSED (R49). -/
def State.lampsAndOffersOk (s : State) : Prop :=
  (s.course.course = .countdown → 1 ≤ s.course.lampCount ∧ s.course.lampCount ≤ 5 ∧ s.course.nextLamp ≠ none) ∧
  (s.course.course ≠ .countdown → s.course.lampCount = 0 ∧ s.course.nextLamp = none) ∧
  s.binding.offers.length ≤ 4 ∧ (s.binding.offers.map (·.car)).Nodup ∧
  (s.binding.window = none → s.binding.offers = [])

/-- In LAYOUT the course is STOP, no car is placed, every switch is READY or DISABLED with no car held, no cap is held and
no offer made (R5, R11). -/
def State.layoutQuiet (s : State) : Prop :=
  s.geo.phase = .layout →
    s.course.course = .stop ∧
    (∀ c : CarId, s.tracker.cars[c].placed = none ∧ s.lane.conflictCaps[c] = none ∧ s.lane.busyCaps[c] = none ∧
      s.lane.pitHolds[c] = none) ∧
    (∀ z : ZoneId, s.tracker.lists[z] = []) ∧
    (∀ w : SwitchId, ((s.switch w).mode = .ready ∨ (s.switch w).mode = .disabled) ∧ (s.switch w).holds = []) ∧
    s.binding.offers = []

/-! ## The rail frame -/

/-- WIN is high exactly from position 184 on (R134); before the first frame the bit counter stands at 0 with no part on RDO
(R133); in a frame the part on RDO has the length of Table 7-1, none in the quiet window (R131). -/
def State.frameOk (s : State) : Prop :=
  let b := s.seq.bitCounter.val
  (s.seq.win = true ↔ 184 ≤ b) ∧
  (s.seq.running = false → b = 0 ∧ s.seq.rdo = []) ∧
  (s.seq.running = true → s.seq.rdo.length = if b < 24 then 12 else if b < 184 then 10 else 0)

/-! ## The restore (R148, R149) -/

/-- A content lies within the values of R142 for row r. -/
def contentOk (r : RowId) : StoreContent → Prop
  | .car identity ceiling permit =>
    r.val < 16 ∧ identity ≠ some 0 ∧ identity ≠ some 0xFFFF ∧ ceiling.toNat ≤ 63 ∧ permit.toNat ≤ 1
  | .marshal identity => 16 ≤ r.val ∧ identity ≠ some 0 ∧ identity ≠ some 0xFFFF

/-- The order in which the restore reads the rows: 17 to 20, and then 1 to 16. -/
def restoreOrder : List RowId := (List.finRange 4).map rowOfMarshal ++ (List.finRange 16).map rowOfCar

/-- The row that an identity has been restored from when row r is read: the first VALID row before r that holds it. -/
def State.restoredFrom (s : State) (r : RowId) (i : Ident) : Option RowId :=
  (restoreOrder.takeWhile (· ≠ r)).find? fun q => (s.validRow q).any (storedIdentity · == some i)

/-- The alert of a row: STORE_ROW_LOST when it is INVALID, RESTORE_DUPLICATE when its identity has been restored already,
with the entry that holds it; none for a row that restores its content. -/
def State.alertOfRow (s : State) (r : RowId) : Option NoticeBody :=
  match s.validRow r with
  | none => some (.storeRowLost r)
  | some content => (storedIdentity content).bind fun i => (s.restoredFrom r i).map fun q => .restoreDuplicate r i (entryOfRow q)

/-! ## Crossings -/

/-- A crossing that the Car Tracker places: taken from its owner in RUN at a defined sensor, for a car 1..16, neither a
duplicate nor late (R66, R68, R69). -/
def State.placesCrossing (s : State) (p : PortId) (n : SensorId) (c : CarId) (stamp : Time) : Prop :=
  s.takes p ∧ s.geo.phase = .run ∧ s.geo.sensors[n].defined = true ∧ s.geo.sensors[n].owner = p ∧
    ¬ (s.tracker.cars[c].lastSensor = some n ∧
        ((stamp - s.tracker.cars[c].lastStamp).toNat < 100 ∨ (s.tracker.cars[c].lastStamp - stamp).toNat < 100)) ∧
    ∀ pl : Placed, s.tracker.cars[c].placed = some pl → 0 ≤ (stamp - pl.entryStamp).toInt

/-- The state that the entry decision of a placed crossing reads: the car placed, and steps 1 to 4 of R71 made. -/
def State.afterCrossing (s : State) (n : SensorId) (z : ZoneId) (c : CarId) (stamp : Time) : State :=
  (s.placeCrossing n z c stamp).handOver n z c stamp

/-! ## Applies (R9, R57, R128, R158) -/

/-- A staging whose apply passes tests 1 to 4 of R158. -/
def State.mayApply (s : State) (p : PortId) (st : Staging) : Prop :=
  s.takes p ∧ (s.ports[p]).staging = some st ∧ st.ref.readOnly = false ∧ (s.ports[p]).raceControl = true ∧
    (st.ref.isGeometry = true → s.geo.phase = .layout) ∧
    ∀ revision : Option Byte, st.mode = .conditional revision → revision = s.revisionOf st.ref

/-- The range test of each writable field of an image, in field-number order (Tables 1-1, 1-2, 1-4, 3-1 and 6-5, R7). -/
def fieldTests (ref : RecordRef) (image : List Byte) : List Bool :=
  let b := fun k => (image.getD k 0).toNat
  let w := fun k => 256 * b k + b (k + 1)
  let within := fun lo hi x => decide (lo ≤ x ∧ x ≤ hi)
  match ref with
  | .zone _ =>
    [within 0 1 (b 0), within 0 4 (b 1), within 1 8 (b 2), within 0 1000 (w 3),
      decide (w 5 = 0) || within 100 60000 (w 5)]
  | .switch _ =>
    [within 0 1 (b 0), within 0 2 (b 1), within 0 3 (b 2), within 0 1 (b 3), within 0 63 (b 4), within 0 63 (b 5),
      within 0 63 (b 6) || decide (b 6 = 255), within 0 5000 (w 7), within 20 500 (w 9), within 200 5000 (w 11)]
  | .sensor _ =>
    [within 0 1 (b 0), within 0 2 (b 1), within 0 63 (b 2) || (decide (b 2 = 255) && decide (b 1 = 2)),
      within 0 31 (b 3) || (decide (b 3 = 255) && decide (b 1 ≠ 1)), within 0 3 (b 4)]
  | .binding _ => [true, within 0 63 (b 2), within 0 1 (b 3)]
  | .marshal _ => [true]
  | .settings =>
    [within 0 63 (b 0), within 0 63 (b 1), within 200 5000 (w 2), within 0 15 (b 4), within 0 63 (b 5),
      within 100 3000 (w 6), within 0 63 (b 8), within 0 1 (b 9), within 0 1 (b 10)]
  | .handset _ => []
  | .car _ => []

/-! ## Records as FETCH returns them (R5, R10, R38, R81, R111, R166) -/

/-- Two and four bytes, most significant first. -/
def w2 (x : BitVec 16) : List Byte := [x.extractLsb' 8 8, x.extractLsb' 0 8]

def w4 (x : BitVec 32) : List Byte :=
  [x.extractLsb' 24 8, x.extractLsb' 16 8, x.extractLsb' 8 8, x.extractLsb' 0 8]

/-- The values of the enumerations that a record holds (Table 10-5). -/
def recordCodes : Prop :=
  [SwitchKind.crossover, .pitEntry, .pitExit].map SwitchKind.byte = [0, 1, 2] ∧
  [Direction.inward, .outward].map Direction.byte = [0, 1] ∧
  [RunState.ready, .pending, .set, .restoring, .faulted, .disabled].map RunState.byte = [0, 1, 2, 3, 4, 5] ∧
  [Position.normal, .thrown, .unknown].map Position.byte = [0, 1, 2] ∧
  [Source.paired, .manual, .restored].map Source.byte = [0, 1, 2] ∧
  [Permit.allowed, .barred].map Permit.byte = [0, 1] ∧ [Mark.clean, .dirty].map Mark.byte = [0, 1] ∧
  [LinkState.acquiring, .live, .stale, .lost].map LinkState.byte = [0, 1, 2, 3] ∧
  [Way.sensor, .switch].map Way.byte = [0, 1] ∧
  [LaneCode.shiftIn, .shiftOut, .pit].map LaneCode.byte = [1, 2, 3] ∧
  [DecisionReason.course, .barred, .busy, .faulted, .disabled, .locked, .pitClosed, .blocked, .guardTime, .full,
    .approach, .queue, .wait].map DecisionReason.byte = [1, 2, 3, 4, 5, 6, 7, 8, 9, 10, 11, 12, 13]

/-- Car c's record: the list place, the hold's reason and place are those of the car's first entry, and the claim bits are set
for the switches whose claim names the car. -/
def State.carForm (s : State) (c : CarId) (image : List Byte) : Prop :=
  let r := s.tracker.cars[c]
  ∃ (place reason holdPlace : Byte) (claims : BitVec 32),
    (r.placed = none → place = 0xFF) ∧
    (∀ (pl : Placed) (before after : List Occupant) (o : Occupant), r.placed = some pl →
      s.tracker.lists[pl.zone] = before ++ o :: after → o.car = c → (∀ q ∈ before, q.car ≠ c) →
      place = BitVec.ofNat 8 (before.length + 1)) ∧
    (s.lane.pitHolds[c] = none → reason = 0xFF ∧ holdPlace = 0xFF) ∧
    (∀ (w : SwitchId) (before after : List Hold) (h : Hold), s.lane.pitHolds[c] = some w →
      (s.switch w).holds = before ++ h :: after → h.car = c → (∀ q ∈ before, q.car ≠ c) →
      reason = h.reason.byte ∧ holdPlace = BitVec.ofNat 8 (before.length + 1)) ∧
    (∀ w : SwitchId, claims.getLsbD w.val = true ↔ ∃ cl : Claim, (s.switch w).mode.claim = some cl ∧ cl.car = c) ∧
    image =
      [r.placed.elim 0 fun pl => if pl.stalled then 2 else 1, r.placed.elim 0xFF fun pl => BitVec.ofNat 8 pl.zone.val] ++
      w4 (r.placed.elim 0 (·.entryStamp)) ++
      [r.placed.elim 0xFF (·.way.byte), r.lastSensor.elim 0xFF fun n => BitVec.ofNat 8 n.val] ++ w4 r.lastStamp ++
      [place, (s.lane.intents[c]).elim 0xFF (·.code.byte)] ++ w4 ((s.lane.intents[c]).elim 0 (·.expiry)) ++
      [(s.lane.conflictCaps[c]).elim 0xFF (·.value.setWidth 8)] ++ w4 ((s.lane.conflictCaps[c]).elim 0 (·.ends)) ++
      [(s.lane.busyCaps[c]).elim 0xFF (·.value.setWidth 8),
        (s.lane.busyCaps[c]).elim 0xFF fun x => BitVec.ofNat 8 x.switch.val,
        (s.lane.pitHolds[c]).elim 0xFF fun w => BitVec.ofNat 8 w.val, reason, holdPlace] ++ w4 claims

/-- The bytes of a record as it stands: the writable fields in field-number order, then the read-only ones; an absent byte
reads 0xFF, an absent identity 0x0000, the time of an absent field 0. -/
def State.recordForm (s : State) (ref : RecordRef) (image : List Byte) : Prop :=
  let flag := fun b : Bool => if b then (1 : Byte) else 0
  match ref with
  | .zone z =>
    let x := s.geo.zones[z]
    image = [flag x.defined, x.lane, x.capacity] ++ w2 x.guardTime ++ w2 x.stallTime ++ [x.revision]
  | .switch w =>
    let x := s.geo.switches[w]
    image = [flag x.defined, x.kind.byte, BitVec.ofNat 8 x.owner.val, x.direction.byte, BitVec.ofNat 8 x.entryZone.val,
      BitVec.ofNat 8 x.targetZone.val, x.watchZone.elim 0xFF fun z => BitVec.ofNat 8 z.val] ++ w2 x.watchTime ++
      w2 x.actuationTime ++ w2 x.holdLimit ++ [(s.switch w).mode.runState.byte, (s.switch w).position.byte, x.revision]
  | .sensor n =>
    let x := s.geo.sensors[n]
    (∀ z : ZoneId, x.kind = .boundary z → image =
      [flag x.defined, 0, BitVec.ofNat 8 z.val, 0xFF, BitVec.ofNat 8 x.owner.val, x.revision]) ∧
    (∀ (z : ZoneId) (w : SwitchId), x.kind = .entry z w → image =
      [flag x.defined, 1, BitVec.ofNat 8 z.val, BitVec.ofNat 8 w.val, BitVec.ofNat 8 x.owner.val, x.revision]) ∧
    (x.kind = .pairing → image = [flag x.defined, 2, 0xFF, 0xFF, BitVec.ofNat 8 x.owner.val, x.revision])
  | .binding c =>
    let x := s.binding.bindings[c]
    (x.held = none → image = [0, 0, x.ceiling.setWidth 8, x.permit.byte, 0, 0xFF, x.revision, x.mark.byte]) ∧
    ∀ a : Held, x.held = some a → image = w2 a.identity ++ [x.ceiling.setWidth 8, x.permit.byte,
      if a.state = .reserved then 1 else if a.state = .bound then 2 else 3, a.source.byte, x.revision, x.mark.byte]
  | .marshal m =>
    let x := s.binding.marshals[m]
    image = w2 (x.identity.getD 0) ++ [x.revision, x.mark.byte]
  | .settings =>
    let x := s.course.settings
    image = [x.cautionCap.setWidth 8, x.pitLimit.setWidth 8] ++ w2 x.intentLife ++
      [x.pairingFloor.setWidth 8, x.conflictCap.setWidth 8] ++ w2 x.conflictHold ++
      [x.busyCap.setWidth 8, flag x.autoCaution, flag x.autoSave, x.revision]
  | .handset h =>
    (s.handsets.records[h] = none → image = List.replicate 11 0 ++ [0xFF] ++ List.replicate 11 0) ∧
    ∀ r : Handset, s.handsets.records[h] = some r → image = [1] ++ w2 r.identity ++ [r.link.byte,
      r.lastCount.setWidth 8, r.throttle.setWidth 8, r.heldCode.setWidth 8, r.candidateCode.setWidth 8,
      BitVec.ofNat 8 r.heardStation.val, flag r.batteryLow, r.lastStrength.setWidth 8,
      r.boundCar.elim 0xFF fun c => BitVec.ofNat 8 (c.val + 1), flag r.marshal, BitVec.ofNat 8 r.duplicateCount,
      BitVec.ofNat 8 r.lateCount] ++ w4 r.reportStamp ++ w4 r.stateStamp
  | .car c => s.carForm c image

/-! ## Bindings -/

/-- A record that is freed makes the full-alert flag ARMED; while none is freed the flag stays (R33). -/
def State.armsOnFreeing (s t : State) : Prop :=
  ((∃ h : HandsetId, s.handsets.records[h] ≠ none ∧ t.handsets.records[h] = none) → t.handsets.fullAlert = .armed) ∧
  ((∀ h : HandsetId, s.handsets.records[h] ≠ none → t.handsets.records[h] ≠ none) →
    t.handsets.fullAlert = s.handsets.fullAlert)

/-- A change of a car's identity is carried to its neighbours: the record of the old identity loses its bound car, and is
freed if it is LOST and no marshal's; the record of the new identity names the car; the car's intent is cleared. A change
that keeps the identity touches neither (R33, R45). -/
def State.neighboursFollow (s t : State) (c : CarId) (old new : Option Ident) : Prop :=
  (old = new → t.handsets = s.handsets ∧ t.lane.intents = s.lane.intents) ∧
  (old ≠ new → t.lane.intents = modAt s.lane.intents c (fun _ => none) ∧ s.armsOnFreeing t ∧
    ∀ h : HandsetId,
      (s.handsets.records[h] = none → t.handsets.records[h] = none) ∧
      ∀ r : Handset, s.handsets.records[h] = some r →
        (new = some r.identity → t.handsets.records[h] = some { r with boundCar := some c }) ∧
        (old = some r.identity → r.link = .lost → r.marshal = false → t.handsets.records[h] = none) ∧
        (old = some r.identity → (r.link ≠ .lost ∨ r.marshal = true) →
          t.handsets.records[h] = some { r with boundCar := none }) ∧
        (new ≠ some r.identity → old ≠ some r.identity → t.handsets.records[h] = some r))

/-! ## Handset reports (R26, R36) -/

/-- The record that an accepted report leaves, with the given link state: steps 1 and 2 of R26 and the validation of R36. -/
def Handset.reported (r : Handset) (p : PortId) (count throttle code battery strength : Byte) (link : LinkState)
    (now : Time) : Handset :=
  { r with
    lastCount := count.setWidth 4, throttle := throttle.setWidth 6, batteryLow := battery.getLsbD 0,
    lastStrength := strength.setWidth 4, heardStation := p, reportStamp := now, link := link,
    stateStamp := if link = r.link then r.stateStamp else now,
    heldCode := if code.setWidth 4 = r.candidateCode then code.setWidth 4 else r.heldCode,
    candidateCode := code.setWidth 4 }

/-- The BATTERY notice of step 3, when the mark changed (R27). -/
def State.batteryNotice (s : State) (p : PortId) (r : Handset) (battery : Byte) : State :=
  if battery.getLsbD 0 = r.batteryLow then s
  else s.offerTo p (.battery r.identity (battery.getLsbD 0) r.boundCar)

/-- A report payload in its ranges (R21). -/
def reportInRange (identity : Ident) (count throttle code strength : Byte) : Prop :=
  identity ≠ 0 ∧ identity ≠ 0xFFFF ∧ count.toNat ≤ 15 ∧ throttle.toNat ≤ 63 ∧ code.toNat ≤ 15 ∧ strength.toNat ≤ 15

/-- A report in range, taken on port p while requests are, whose identity record h holds. -/
def State.hears (s : State) (p : PortId) (h : HandsetId) (r : Handset) (identity : Ident)
    (count throttle code strength : Byte) : Prop :=
  s.takes p ∧ reportInRange identity count throttle code strength ∧ s.handsetOf identity = some h ∧
    s.handsets.records[h] = some r ∧ r.identity = identity

/-- The report's code confirms the candidate and differs from the held code: a code edge (R36). -/
def Handset.edge (r : Handset) (code : Byte) : Prop :=
  code.setWidth 4 = r.candidateCode ∧ code.setWidth 4 ≠ r.heldCode

/-- The count difference of R24. -/
def Handset.difference (r : Handset) (count : Byte) : Nat := (count.setWidth 4 - r.lastCount).toNat

/-- The filter accepts the report: in ACQUIRING and LIVE only a count 1 to 7 on (Table 2-3). -/
def Handset.accepts (r : Handset) (count : Byte) : Prop :=
  r.link = .acquiring ∨ r.link = .live → 1 ≤ r.difference count ∧ r.difference count ≤ 7

/-- The link state after an accepted report: LIVE stays, the next count in ACQUIRING makes LIVE, and else ACQUIRING (R28,
R31). -/
def Handset.linkAfter (r : Handset) (count : Byte) : LinkState :=
  if r.link = .live ∨ (r.link = .acquiring ∧ r.difference count = 1) then .live else .acquiring

/-- What a record's move into LIVE hands on: its RESERVED or SUSPENDED car becomes BOUND, as a change with its BINDING
notice, and then HANDSET_STATE is offered for a bound or marshal record (R34, R35, R43). -/
def State.wentLive (s : State) (p : PortId) (r : Handset) : State :=
  match r.boundCar with
  | some c =>
    let b := s.binding.bindings[c]
    let moved : State := match b.held with
      | some a =>
        if a.state = HeldState.bound then s
        else
          let held := some (Held.mk a.identity a.source .bound)
          (s.putBinding c { b with held := held, revision := b.revision + 1, mark := .dirty }).offerRaceControl
            (.binding c held (b.revision + 1))
      | none => s
    moved.offerWithRaceControl p (.handsetState r.identity .live (.car c))
  | none =>
    match s.marshalOf r.identity with
    | some m => if r.marshal then s.offerWithRaceControl p (.handsetState r.identity .live (.marshal m)) else s
    | none => s

/-- What an accepted report leaves before the effect of its code edge: its record, a move into LIVE handed on, and BATTERY on
a change of mark (R26). -/
def State.accepted (s : State) (p : PortId) (h : HandsetId) (r : Handset) (count throttle code battery strength : Byte) :
    State :=
  let link := r.linkAfter count
  let u := s.putRecord h (some (r.reported p count throttle code battery strength link s.now))
  (if r.link ≠ .live ∧ link = .live then u.wentLive p r else u).batteryNotice p r battery

/-! ## Decisions (Table 5-3, R90) -/

/-- A check of Table 5-3 fails, by its result; check 1 fails for CAUTION at a CROSSOVER alone. -/
def State.fails (s : State) (c : CarId) (w : SwitchId) : DecisionReason → Prop
  | .course => s.course.course = .stop ∨ s.course.course = .countdown ∨
      (s.course.course = .caution ∧ s.geo.switches[w].kind = .crossover)
  | .barred => s.binding.bindings[c].permit = .barred
  | .busy => (s.switch w).mode.runState ∈ [RunState.pending, .set, .restoring]
  | .faulted => (s.switch w).mode.runState = .faulted
  | .disabled => (s.switch w).mode.runState = .disabled
  | .locked => s.course.locks[s.geo.switches[w].targetZone] = true
  | .pitClosed => s.geo.switches[w].kind = .pitEntry ∧ s.course.pitOpen = false
  | .blocked => ∃ o ∈ s.tracker.lists[s.geo.switches[w].targetZone], ∃ pl : Placed,
      s.tracker.cars[o.car].placed = some pl ∧ pl.stalled = true
  | .guardTime => ∃ o ∈ s.tracker.lists[s.geo.switches[w].targetZone],
      (s.now - o.entryStamp).toNat < s.geo.zones[s.geo.switches[w].targetZone].guardTime.toNat
  | .full => s.geo.zones[s.geo.switches[w].targetZone].capacity.toNat ≤
      s.tracker.lists[s.geo.switches[w].targetZone].length
  | .approach => ∃ z : ZoneId, s.geo.switches[w].watchZone = some z ∧ ∃ o ∈ s.tracker.lists[z],
      s.geo.switches[w].watchTime.toNat ≤ (s.now - o.entryStamp).toNat
  | .queue => 32 ≤ (s.ports[s.geo.switches[w].owner]).queue.length
  | .wait => False

/-- The order of the checks at a CROSSOVER or PIT_ENTRY (R87). -/
def laneOrder : List DecisionReason :=
  [.course, .barred, .busy, .faulted, .disabled, .locked, .pitClosed, .blocked, .guardTime, .full, .approach, .queue]

/-- The order of the checks at a PIT_EXIT (R90). -/
def exitOrder : List DecisionReason :=
  [.course, .busy, .faulted, .disabled, .blocked, .guardTime, .full, .approach, .queue]

/-- r is the first of the checks in this order that fails. -/
def State.firstFails (s : State) (c : CarId) (w : SwitchId) (order : List DecisionReason) (r : DecisionReason) : Prop :=
  ∃ before after : List DecisionReason, order = before ++ r :: after ∧ s.fails c w r ∧ ∀ q ∈ before, ¬ s.fails c w q

/-- The DECISION notice, to the owner and race control (R89). -/
def State.tellDecision (s : State) (w : SwitchId) (c : CarId) (d : Decision) : State :=
  s.offerWithRaceControl s.geo.switches[w].owner (.decision w c d)

/-! ## Switches (R98, R105) -/

/-- A switch report that passes tests 1 to 3 of R98. -/
def State.takesReport (s : State) (p : PortId) (w : SwitchId) (number : Byte) : Prop :=
  s.takes p ∧ s.geo.phase = .run ∧ number = BitVec.ofNat 8 w.val ∧ s.geo.switches[w].defined = true ∧
    s.geo.switches[w].owner = p

/-- The CLAIM_CLOSED notice (R97). -/
def State.tellClosed (s : State) (w : SwitchId) (cl : Claim) (outcome : FinalOutcome) : State :=
  s.offerWithRaceControl s.geo.switches[w].owner (.claimClosed w cl.car outcome cl.grantStamp)

/-- The SWITCH_FAULT alert of an entry into FAULTED with this position, and the fault report that follows it unless the
position is NORMAL (R105). -/
def State.tellFault (s : State) (w : SwitchId) (cause : FaultCause) (left : RunState) (position : Position) : State :=
  let told := s.offerWithRaceControl s.geo.switches[w].owner (.switchFault w cause left position)
  if position = .normal then told else told.faultReport w

/-- The notices of a track clear for switch w of state s, offered on state u: RESTORE if the owner's queue has room, and
CLAIM_CLOSED; with a full queue CLAIM_CLOSED and SWITCH_FAULT; none for a switch without a claim (R97, R110, R126). -/
def State.tellCleared (s u : State) (w : SwitchId) : State :=
  match (s.switch w).mode.claim with
  | none => u
  | some cl =>
    if (u.ports[s.geo.switches[w].owner]).queue.length < 32 then
      (u.offerTo s.geo.switches[w].owner (.restoreSwitch w)).tellClosed w cl (.recorded cl.outcome)
    else (u.tellClosed w cl (.recorded cl.outcome)).offerWithRaceControl s.geo.switches[w].owner
      (.switchFault w .restoreQueue (s.switch w).mode.runState .thrown)

/-! ## The layout checks (Table 1-6) -/

/-- Checks 1 to 8 pass for switch w. -/
def Geometry.switchSound (g : Geometry) (w : SwitchId) : Prop :=
  let sw := g.switches[w]
  let entryLane := g.zones[sw.entryZone].lane
  let targetLane := g.zones[sw.targetZone].lane
  g.zones[sw.entryZone].defined = true ∧ g.zones[sw.targetZone].defined = true ∧
    (∀ z : ZoneId, sw.watchZone = some z → g.zones[z].defined = true ∧ g.zones[z].lane = targetLane) ∧
    entryLane ≠ targetLane ∧
    (sw.kind = .crossover → entryLane ≠ 4 ∧ targetLane ≠ 4) ∧
    (sw.kind = .pitEntry → targetLane = 4 ∧ entryLane ≠ 4) ∧
    (sw.kind = .pitExit → entryLane = 4 ∧ targetLane ≠ 4) ∧
    ∃! n : SensorId, g.sensors[n].defined = true ∧ ∃ z : ZoneId, g.sensors[n].kind = .entry z w

/-- Checks 9 to 11 pass for sensor n. -/
def Geometry.sensorSound (g : Geometry) (n : SensorId) : Prop :=
  (∀ z : ZoneId, g.sensors[n].kind = .boundary z → g.zones[z].defined = true) ∧
    ∀ (z : ZoneId) (w : SwitchId), g.sensors[n].kind = .entry z w →
      g.zones[z].defined = true ∧ g.switches[w].defined = true ∧ g.switches[w].entryZone = z

/-! ## The writer (R143) -/

/-- A row that the writer may choose: its entry is DIRTY, and STWE is high for a marshal row. -/
def State.mayCommit (s : State) (r : RowId) : Prop :=
  (∀ c : CarId, r.val = c.val → s.binding.bindings[c].mark = .dirty) ∧
    ∀ m : MarshalId, r.val = 16 + m.val → s.binding.marshals[m].mark = .dirty ∧ s.store.stwe = true

/-- The snapshot that a commit of row r takes: identity, and for a car row ceiling and permit, with the revision. -/
def State.snapshotOf (s : State) (r : RowId) (origin : Origin) (x : Commit) : Prop :=
  x.row = r ∧ x.origin = origin ∧ x.stepEnd = s.now + 2 ∧
    (∀ c : CarId, r.val = c.val →
      x.content = .car (s.binding.bindings[c].held.map (·.identity)) (s.binding.bindings[c].ceiling.setWidth 8)
        (match s.binding.bindings[c].permit with | .allowed => 0 | .barred => 1) ∧ x.revision = s.binding.bindings[c].revision) ∧
    ∀ m : MarshalId, r.val = 16 + m.val →
      x.content = .marshal s.binding.marshals[m].identity ∧ x.revision = s.binding.marshals[m].revision

/-- What the start of a commit leaves: the row without a content, under the check that agrees with none, the writer
INVALIDATING with the snapshot (R142, R144 step 1). -/
def State.begun (s : State) (r : RowId) (x : Commit) : State := (s.putRow r voidRow).putWriter (.invalidating x)

/-- The revision of a row's entry has not moved since a snapshot. -/
def State.unmoved (s : State) (x : Commit) : Prop :=
  (∀ c : CarId, x.row.val = c.val → s.binding.bindings[c].revision = x.revision) ∧
    ∀ m : MarshalId, x.row.val = 16 + m.val → s.binding.marshals[m].revision = x.revision

/-- The binding table with the mark of a row's entry set. -/
def State.marked (s : State) (r : RowId) (mark : Mark) : BindingTable :=
  { s.binding with
    bindings := mapAll s.binding.bindings fun c b => if c.val = r.val then { b with mark := mark } else b,
    marshals := mapAll s.binding.marshals fun m e => if 16 + m.val = r.val then { e with mark := mark } else e }

/-- The STORE_DONE notice at the end of a SAVE commit, to its port; an AUTO commit has none (R146). -/
def State.tellStored (s : State) (x : Commit) (outcome : StoreOutcome) : State :=
  match x.origin with
  | .auto => s
  | .save p => s.offerTo p (.storeDone x.row outcome)

/-! ## The rail (R131, R137, R138) -/

/-- Position p begins a part of the frame, or ends the frame (Table 7-1). -/
def beginsPart (p : Nat) : Prop := p = 12 ∨ p = 184 ∨ p = 200 ∨ ∃ c : CarId, p = 24 + 10 * c.val

/-- The millisecond of position p of the frame being sent has come: 40 bit periods fill each, and the frame began 5 ms before
the next one begins (R131). -/
def State.reachesBit (s : State) (p : Nat) : Prop :=
  (s.now - (s.seq.nextFrame - 5 + BitVec.ofNat 32 (p / 40))).toNat < 2 ^ 31

/-- The bounds of the running speed of car c on a throttle: v is one of them (R138). -/
def State.speedBound (s : State) (c : CarId) (throttle : BitVec 6) (v : BitVec 6) : Prop :=
  v = throttle ∨ v = s.binding.bindings[c].ceiling ∨
    (s.course.course = .caution ∧ v = s.course.settings.cautionCap) ∨
    ((∃ pl : Placed, s.tracker.cars[c].placed = some pl ∧ s.geo.zones[pl.zone].lane = 4) ∧
      v = s.course.settings.pitLimit) ∨
    (∃ cap : ConflictCap, s.lane.conflictCaps[c] = some cap ∧ v = cap.value) ∨
    (∃ cap : BusyCap, s.lane.busyCaps[c] = some cap ∧ v = cap.value) ∨
    (s.lane.pitHolds[c] ≠ none ∧ v = 0)

end Sys2Proof.Machine
end

