-- ==== Sys2Proof/Certificates/Slice0/Obligations.lean ====
section
/-! DEFINITION. The statements for the provers, by block. -/

open Sys2Proof Sys2Proof.Machine

/-! ## Steps, reset and start-up -/

/-- A step carries out the command at the front of the queue with the queue's rest. On an empty queue a bit period passes (the
model's choice, log 1, 16): while frames run, the bit counter counts on by one inside the part being sent, once the
millisecond of the next bit period has come (R131); else the block idles. -/
def Obligations.StepRunsTheFrontCommand : Prop :=
  (∀ (c : Instr) (rest : List Instr) (s : State),
    step { s with pending := c :: rest } = exec c { s with pending := rest }) ∧
  ∀ s : State, s.pending = [] →
    (let next := s.seq.bitCounter.val + 1
     (∀ p : Fin 200, s.seq.running = true → p.val = next → ¬ beginsPart next → s.reachesBit next →
       step s = .next { s with seq := { s.seq with bitCounter := p } }) ∧
     ((s.seq.running = false ∨ beginsPart next ∨ ¬ s.reachesBit next) → step s = .next s))

/-- Every command of every state is answered by a next state, and leaves the queue alone. -/
def Obligations.EveryCommandIsAnswered : Prop :=
  ∀ (c : Instr) (s : State), ∃ t : State, exec c s = .next t ∧ t.pending = s.pending

/-- R130, R133, R147 and the reset values of every chapter: what a hard reset leaves, and what it keeps (the rows and
STWE). RDO is low. A transaction in progress is discarded, SELn left as it is (R152). The 0 of the bit, frame and word
counters is the model's (log 16), a pulse and its straps taken as one command (log 4). -/
def Obligations.HardResetSetsEveryBlock : Prop :=
  ∀ (rcs : BitVec 4) (s : State), ∃ t : State, exec (.hardReset rcs) s = .next t ∧
    t.seq = Sequencer.mk 0 true false false 0 0 4 [] false ∧ t.seq.wordCounter = 0 ∧ t.seq.rdoLevel = false ∧
    t.geo.phase = .layout ∧
    (∀ z : ZoneId, t.geo.zones[z] = Zone.mk false 0 1 250 0 0) ∧
    (∀ w : SwitchId, t.geo.switches[w] = Switch.mk false .crossover 0 .inward 0 0 none 400 80 1500 0) ∧
    (∀ n : SensorId, t.geo.sensors[n] = Sensor.mk false (.boundary 0) 0 0) ∧
    (∀ h : HandsetId, t.handsets.records[h] = none) ∧ t.handsets.fullAlert = .armed ∧
    (∀ c : CarId, t.binding.bindings[c] = Binding.mk none 63 .allowed 0 .clean) ∧
    (∀ m : MarshalId, t.binding.marshals[m] = MarshalEntry.mk none 0 .clean) ∧
    t.binding.window = none ∧ t.binding.offers = [] ∧
    (∀ c : CarId, t.tracker.cars[c] = CarRecord.mk none none 0 none) ∧
    (∀ z : ZoneId, t.tracker.lists[z] = []) ∧
    (∀ w : SwitchId, t.switch w = SwitchState.mk .ready .normal [] none) ∧
    (∀ c : CarId, t.lane.intents[c] = none ∧ t.lane.conflictCaps[c] = none ∧ t.lane.busyCaps[c] = none ∧
      t.lane.pitHolds[c] = none) ∧
    t.course.course = .stop ∧ t.course.lampCount = 0 ∧ t.course.nextLamp = none ∧ t.course.pitOpen = false ∧
    (∀ z : ZoneId, t.course.locks[z] = false) ∧
    t.course.settings = Settings.mk 24 20 2000 10 16 600 16 true true 0 ∧
    t.store = { s.store with writer := .idle } ∧
    (∀ p : PortId, (t.ports[p]).selLow = (s.ports[p]).selLow ∧
      (t.ports[p]).discarded = (s.ports[p]).selLow ∧ (t.ports[p]).shiftFrame = [] ∧ (t.ports[p]).reply = .idle ∧
      (t.ports[p]).staging = none ∧ (t.ports[p]).cursor = none ∧ (t.ports[p]).queue = [] ∧
      (t.ports[p]).attentionLevel = 1 ∧ (t.ports[p]).shedLevel = 24 ∧ (t.ports[p]).shedCount = 0 ∧
      (t.ports[p]).lostCount = 0 ∧ (t.ports[p]).linkErrors = 0 ∧ (t.ports[p]).checkError = false)

/-- R114: the straps give the rights at a hard reset, no other command moves them, and a reserved request from a port
without rights is refused NOT_PERMITTED and changes nothing else. -/
def Obligations.RightsAreFixedAtHardReset : Prop :=
  (∀ (rcs : BitVec 4) (s : State), ∃ t : State, exec (.hardReset rcs) s = .next t ∧ t.rcs = rcs ∧
    ∀ p : PortId, (t.ports[p]).raceControl = true ↔ rcs.getLsbD p.val = true ∨ (rcs = 0 ∧ p = 0)) ∧
  (∀ (c : Instr) (s t : State), (∀ rcs : BitVec 4, c ≠ .hardReset rcs) → exec c s = .next t →
    t.rcs = s.rcs ∧ ∀ p : PortId, (t.ports[p]).raceControl = (s.ports[p]).raceControl) ∧
  ∀ (p : PortId) (a b : Byte) (c : Instr) (s : State),
    c ∈ [.start p, .stop p, .caution p, .green p, .pitOpen p, .pitClose p, .zoneLock p a b, .trackClear p,
      .switchDisable p a, .switchEnable p a, .switchClear p a, .layoutRun p, .layoutEdit p, .openPairing p a,
      .closePairing p, .release p a, .storeSave p a] →
    s.takes p → (s.ports[p]).raceControl = false →
    exec c s = .next (s.answer p (.refused .notPermitted))

/-- R130: the track time increases by one at each tick, from 4294967295 to 0, and moves at no other command but a hard
reset, which sets it to 0. -/
def Obligations.TrackTimeCounts : Prop :=
  (∀ s : State, exec .trackTimeTick s = .next { s with seq := { s.seq with trackTime := s.seq.trackTime + 1 } }) ∧
  (∀ (rcs : BitVec 4) (s t : State), exec (.hardReset rcs) s = .next t → t.seq.trackTime = 0) ∧
  ∀ (c : Instr) (s t : State), c ≠ .trackTimeTick → (∀ rcs : BitVec 4, c ≠ .hardReset rcs) → exec c s = .next t →
    t.seq.trackTime = s.seq.trackTime

/-- R150: during the start-up (the starting flag, log 6) every request row and every request frame is answered STARTING;
the port's flag and counts and everything else are left as they are. The rise of a discarded transaction is no request
(FramesThatFailAreAnswered). -/
def Obligations.StartUpRefusesEveryRequest : Prop :=
  ∀ (s : State) (p : PortId), s.seq.starting = true → (s.ports[p]).discarded = false →
    (∀ (c : Instr) (code : Byte) (payload : List Byte), requestOf c = some (p, code, payload) →
      exec c s = .next (s.modPort p fun pt =>
        { pt with selLow := false, shiftFrame := [], reply := .refused .starting })) ∧
    ∀ sdi : List Bool, 8 ≤ sdi.length →
      exec (.requestFrame p sdi) s = .next (s.modPort p fun pt =>
        { pt with selLow := false, shiftFrame := [], reply := .refused .starting })

/-- R142, R148, R149: a row is VALID when its check agrees with its content and the content is in range (the check's algorithm
is free, log 17); what the restore leaves in every marshal entry and every binding record, by the rows, and the alerts it
offers to race control, of rows 17 to 20 and then 1 to 16: STORE_ROW_LOST of an INVALID row, RESTORE_DUPLICATE of a row whose identity an earlier row has restored, with the entry that holds it. Nothing but the entries, their alerts and the
model's restored flag (log 6) changes. -/
def Obligations.RestoreReadsTheRows : Prop :=
  ∀ s : State, s.seq.starting = true → s.seq.restored = false →
    (∀ m : MarshalId, s.binding.marshals[m].identity = none) → (∀ c : CarId, s.binding.bindings[c].held = none) →
    (∀ (r : RowId) (x : StoreContent), s.validRow r = some x ↔
      s.store.rows[r].content = some x ∧ rowCheck s.store.rows[r] = contentCheck x ∧ contentOk r x) ∧
    ∃ t : State, exec .restore s = .next t ∧
      (∀ m : MarshalId,
        (∀ i : Option Ident, s.validRow (rowOfMarshal m) = some (.marshal i) → s.alertOfRow (rowOfMarshal m) = none →
          t.binding.marshals[m] = MarshalEntry.mk i s.binding.marshals[m].revision .clean) ∧
        (s.alertOfRow (rowOfMarshal m) ≠ none →
          t.binding.marshals[m] = MarshalEntry.mk none s.binding.marshals[m].revision .dirty)) ∧
      (∀ c : CarId,
        (∀ (i : Option Ident) (ceiling permit : Byte), s.validRow (rowOfCar c) = some (.car i ceiling permit) →
          s.alertOfRow (rowOfCar c) = none →
          t.binding.bindings[c] = Binding.mk (i.map fun y => Held.mk y .restored .reserved)
            (ceiling.setWidth 6) (if permit = 1 then .barred else .allowed) s.binding.bindings[c].revision .clean) ∧
        (s.alertOfRow (rowOfCar c) ≠ none →
          t.binding.bindings[c] = Binding.mk none 63 .allowed s.binding.bindings[c].revision .dirty)) ∧
      t = { s with
        seq := { s.seq with restored := true },
        binding := { s.binding with bindings := t.binding.bindings, marshals := t.binding.marshals },
        ports := (restoreOrder.foldl (fun u r => (s.alertOfRow r).elim u u.offerRaceControl) s).ports }

/-- R131, R143, R150: from track time 4, after the restore, requests are taken, the first frame begins with its inverted
sync, and the writer makes its choice, as WRITER_COMMIT_START makes it. That the flag waits for the restore is log 6, that
the three come as one is log 7. -/
def Obligations.StartUpEndsAtTrackTimeFour : Prop :=
  ∀ s : State, s.seq.starting = true → s.seq.restored = true → (s.now - 4).toNat < 2 ^ 31 →
    ∃ t : State, exec .restoreEnd s = .next t ∧
      exec .writerCommitStart { s with seq :=
        { s.seq with
          starting := false, running := true, frameCounter := 0, bitCounter := 0, nextFrame := s.seq.nextFrame + 5,
          rdo := [false, false, false, false, true, true, false, false, true, false, true, false], win := false } }
        = .next t

/-- Every event command that is not due, or that finds nothing to act on, changes nothing (the model's choice, log 2). A part
of the rail frame is due in the part before it, from its own millisecond on (R131, log 16). -/
def Obligations.EventsThatAreNotDueChangeNothing : Prop :=
  ∀ s : State,
    ((s.seq.starting = false ∨ s.seq.restored = true) → exec .restore s = .next s) ∧
    ((s.seq.starting = false ∨ s.seq.restored = false ∨ 2 ^ 31 ≤ (s.now - 4).toNat) → exec .restoreEnd s = .next s) ∧
    (∀ h : HandsetId, (∀ r : Handset, s.handsets.records[h] = some r →
        (r.link = .stale ∨ r.link = .lost ∨ 2 ^ 31 ≤ (s.now - (r.reportStamp + 60)).toNat)) →
      exec (.staleExpiry h) s = .next s) ∧
    (∀ h : HandsetId, (∀ r : Handset, s.handsets.records[h] = some r →
        (r.link ≠ .stale ∨ 2 ^ 31 ≤ (s.now - (r.stateStamp + 3000)).toNat)) →
      exec (.handsetLostExpiry h) s = .next s) ∧
    (∀ w : SwitchId, ((s.switch w).holds = [] ∨ ∀ d : Time, (s.switch w).recheck = some d → 2 ^ 31 ≤ (s.now - d).toNat) →
      exec (.pitExitRecheck w) s = .next s) ∧
    (∀ w : SwitchId, (∀ (d : Time) (cl : Claim), (s.switch w).mode = .pending d cl → 2 ^ 31 ≤ (s.now - d).toNat) →
      exec (.actuationDeadline w) s = .next s) ∧
    (∀ w : SwitchId, (∀ (d : Time) (cl : Claim), (s.switch w).mode = .set d cl → 2 ^ 31 ≤ (s.now - d).toNat) →
      exec (.holdDeadline w) s = .next s) ∧
    (∀ w : SwitchId, (∀ d : Time, (s.switch w).mode = .restoring d → 2 ^ 31 ≤ (s.now - d).toNat) →
      exec (.restoringActuationDeadline w) s = .next s) ∧
    (∀ c : CarId, (∀ i : Intent, s.lane.intents[c] = some i → 2 ^ 31 ≤ (s.now - i.expiry).toNat) →
      exec (.intentExpiry c) s = .next s) ∧
    (∀ c : CarId, (∀ cap : ConflictCap, s.lane.conflictCaps[c] = some cap → 2 ^ 31 ≤ (s.now - cap.ends).toNat) →
      exec (.conflictCapEnd c) s = .next s) ∧
    (∀ c : CarId, (∀ (pl : Placed) (d : Time), s.tracker.cars[c].placed = some pl →
        s.tracker.cars[c].stallDeadline = some d → (pl.stalled = true ∨ 2 ^ 31 ≤ (s.now - d).toNat)) →
      exec (.stall c) s = .next s) ∧
    (∀ c : CarId, (∀ o ∈ s.binding.offers, o.car = c → 2 ^ 31 ≤ (s.now - (o.stamp + 4000)).toNat) →
      exec (.offerExpiry c) s = .next s) ∧
    ((∀ d : Time, s.binding.window = some d → 2 ^ 31 ≤ (s.now - d).toNat) → exec .pairingWindowExpiry s = .next s) ∧
    ((s.course.course ≠ .countdown ∨ ∀ d : Time, s.course.nextLamp = some d → 2 ^ 31 ≤ (s.now - d).toNat) →
      exec .lampExpiry s = .next s) ∧
    ((∀ c : Commit, s.store.writer = .invalidating c → 2 ^ 31 ≤ (s.now - c.stepEnd).toNat) →
      exec .writerStepEnd s = .next s) ∧
    ((∀ c : Commit, s.store.writer = .writing c → 2 ^ 31 ≤ (s.now - c.stepEnd).toNat) →
      exec .commitCompletion s = .next s) ∧
    (s.store.stwe = false → exec .stweFall s = .next s) ∧
    (let b := s.seq.bitCounter.val
     ((s.seq.running = false ∨ b < 184 ∨ 2 ^ 31 ≤ (s.now - s.seq.nextFrame).toNat) →
       exec .railFrameStart s = .next s) ∧
     ((s.seq.running = false ∨ 12 ≤ b ∨ ¬ s.reachesBit 12) → exec .broadcastWord s = .next s) ∧
     (∀ c : CarId, (s.seq.running = false ∨ (c = 0 ∧ ¬ (12 ≤ b ∧ b < 24)) ∨
         (c ≠ 0 ∧ ¬ (14 + 10 * c.val ≤ b ∧ b < 24 + 10 * c.val)) ∨ ¬ s.reachesBit (24 + 10 * c.val)) →
       exec (.carWord c) s = .next s) ∧
     ((s.seq.running = false ∨ ¬ (174 ≤ b ∧ b < 184) ∨ ¬ s.reachesBit 184) → exec .quietWindow s = .next s))

/-! ## Station links -/

/-- R152, R154, Tables 9-2 and 10-1: at the fall of SELn the reply frame is the status byte of that moment, the reply code,
the length, the payload and the CRC; nothing else changes. -/
def Obligations.SelnFallComposesTheReplyFrame : Prop :=
  ∀ (p : PortId) (s : State), ∃ status : Byte,
    (let r := (s.ports[p]).reply
     let body := status :: r.code :: BitVec.ofNat 8 r.payload.length :: r.payload
     exec (.selnFall p) s = .next (s.modPort p fun pt =>
       { pt with selLow := true, discarded := false, shiftFrame := body ++ [crc8 body] })) ∧
    (status.getLsbD 7 = true ↔ (∃ n ∈ (s.ports[p]).queue, n.body.cls ≠ .info) ∨
      ((s.ports[p]).queue ≠ [] ∧ (s.ports[p]).attentionLevel ≤ (s.ports[p]).queue.length)) ∧
    (status.getLsbD 6 = true ↔ (s.ports[p]).queue ≠ []) ∧
    (status.getLsbD 5 = true ↔ ∃ n ∈ (s.ports[p]).queue, n.body.cls = .directive) ∧
    (status.getLsbD 4 = true ↔ 0 < (s.ports[p]).shedCount) ∧
    status.getLsbD 3 = (s.ports[p]).checkError ∧
    status.getLsbD 2 = (s.ports[p]).raceControl ∧
    (status.getLsbD 1 = true ↔ s.geo.phase = .run) ∧
    (status.getLsbD 0 = true ↔ s.binding.window ≠ none)

/-- R153, R165, Table 10-3: the request frame of a request row, with any fill bytes and an incomplete byte behind it, does
what the row does. -/
def Obligations.RequestFrameIsItsRequest : Prop :=
  ∀ (c : Instr) (p : PortId) (code : Byte) (payload fill : List Byte) (rest : List Bool) (s : State),
    requestOf c = some (p, code, payload) → c.wellFormed = true → rest.length < 8 →
    exec (.requestFrame p (byteBits (requestFrameBytes code payload ++ fill) ++ rest)) s = exec c s

/-- R152, R153, R164: the rise of SELn in a transaction that a hard reset has discarded takes no request and leaves all else,
so the next transaction reads IDLE; a transaction without a whole byte takes no request; outside the start-up a frame that
fails test 2, 3, 4 or 5 is answered FRAME_ERROR, CHECK_ERROR, UNKNOWN_REQUEST or FRAME_ERROR, is not carried out, and counts
a link error unless it is refused. -/
def Obligations.FramesThatFailAreAnswered : Prop :=
  ∀ (p : PortId) (sdi : List Bool) (s : State),
    ((s.ports[p]).discarded = true →
      exec (.requestFrame p sdi) s = .next (s.discardEnded p) ∧
      ∀ (c : Instr) (code : Byte) (payload : List Byte), requestOf c = some (p, code, payload) →
        exec c s = .next (s.discardEnded p)) ∧
    ((s.ports[p]).selLow = true → ∀ rcs : BitVec 4, ∃ t : State, exec (.hardReset rcs) s = .next t ∧
      exec (.requestFrame p sdi) t = .next (t.discardEnded p) ∧ ((t.discardEnded p).ports[p]).reply = .idle) ∧
    (sdi.length < 8 → (s.ports[p]).discarded = false → exec (.requestFrame p sdi) s =
      .next (s.modPort p fun pt => { pt with selLow := false, shiftFrame := [] })) ∧
    ∀ (bytes : List Byte) (rest : List Bool), s.takes p → bytes ≠ [] → rest.length < 8 →
      sdi = byteBits bytes ++ rest →
      (let length := (bytes.getD 1 0).toNat
       let body := bytes.take (length + 2)
       let short := bytes.length < 3 ∨ 16 < length ∨ bytes.length < length + 3
       let checked := bytes.getD (length + 2) 0 = crc8 body
       (short → exec (.requestFrame p sdi) s = .next (s.linkError p (s.ports[p]).checkError .frameError)) ∧
       (¬ short → ¬ checked → exec (.requestFrame p sdi) s = .next (s.linkError p true .checkError)) ∧
       (¬ short → checked → (∀ row ∈ requestTable, row.1 ≠ bytes.getD 0 0) →
         exec (.requestFrame p sdi) s = .next (s.answer p (.refused .unknownRequest))) ∧
       (¬ short → checked → (∃ row ∈ requestTable, row.1 = bytes.getD 0 0 ∧
           (length < row.2.2.1 ∨ row.2.2.2 < length)) →
         exec (.requestFrame p sdi) s = .next (s.linkError p false .frameError)))

/-- R159, Table 9-4: how a port takes an offered notice, by its class and the level. -/
def Obligations.OfferedNoticesFollowTheirClass : Prop :=
  ∀ (pt : Port) (n : Notice),
    (pt.queue.length < 32 → (n.body.cls = .info → pt.queue.length < pt.shedLevel) →
      pt.offer n = { pt with queue := pt.queue ++ [n] }) ∧
    (n.body.cls = .info → (pt.shedLevel ≤ pt.queue.length ∨ 32 ≤ pt.queue.length) →
      pt.offer n = { pt with shedCount := min (pt.shedCount + 1) 255 }) ∧
    (n.body.cls = .alert → 32 ≤ pt.queue.length → pt.offer n = { pt with lostCount := min (pt.lostCount + 1) 255 }) ∧
    (n.body.cls = .directive → 32 ≤ pt.queue.length → pt.offer n = pt)

/-- R160: TAKE removes the head and returns it whole (R167) with the level left, or the IDLE notice and level 0. -/
def Obligations.TakeReturnsTheHeadNotice : Prop :=
  ∀ (p : PortId) (s : State), s.takes p →
    (∀ (n : Notice) (rest : List Notice), (s.ports[p]).queue = n :: rest →
      exec (.take p) s = .next ((s.modPort p fun pt => { pt with queue := rest }).answer p
        (.done ([n.body.kind, n.body.cls.byte, n.stamp.extractLsb' 8 8, n.stamp.extractLsb' 0 8,
          BitVec.ofNat 8 n.body.payload.length] ++ n.body.payload ++ [BitVec.ofNat 8 rest.length])))) ∧
    ((s.ports[p]).queue = [] → exec (.take p) s = .next (s.answer p (.done [0, 0, 0, 0, 0, 0])))

/-- R152, R161, R162: POLL replies DONE and changes nothing else; PORT STATUS replies the level, the levels and the counts,
and then clears the counts; PORT SET takes two levels of 1..32, and a value outside refuses it RANGE with the place of an
offending value (which of two, log 10) and leaves both levels. -/
def Obligations.PollPortStatusAndPortSet : Prop :=
  ∀ (p : PortId) (a b : Byte) (s : State), s.takes p →
    exec (.poll p) s = .next (s.answer p (.done [])) ∧
    exec (.portStatus p) s = .next ((s.modPort p fun pt =>
      { pt with shedCount := 0, lostCount := 0, linkErrors := 0 }).answer p
        (.done [BitVec.ofNat 8 (s.ports[p]).queue.length, BitVec.ofNat 8 (s.ports[p]).attentionLevel,
          BitVec.ofNat 8 (s.ports[p]).shedLevel, BitVec.ofNat 8 (s.ports[p]).shedCount,
          BitVec.ofNat 8 (s.ports[p]).lostCount, BitVec.ofNat 8 (s.ports[p]).linkErrors])) ∧
    (1 ≤ a.toNat ∧ a.toNat ≤ 32 ∧ 1 ≤ b.toNat ∧ b.toNat ≤ 32 →
      exec (.portSet p a b) s = .next ((s.modPort p fun pt =>
        { pt with attentionLevel := a.toNat, shedLevel := b.toNat }).answer p (.done []))) ∧
    (¬ (1 ≤ a.toNat ∧ a.toNat ≤ 32 ∧ 1 ≤ b.toNat ∧ b.toNat ≤ 32) →
      ∃ (k : Byte) (n : Nat),
        ((k = 1 ∧ ¬ (1 ≤ a.toNat ∧ a.toNat ≤ 32)) ∨ (k = 2 ∧ ¬ (1 ≤ b.toNat ∧ b.toNat ≤ 32))) ∧
        exec (.portSet p a b) s = .next (({ s with freeCount := n }).answer p (.refused (.range k))))

/-- R163, Table 9-5: PORT RESET acts on its own port only, keeps the levels and the rights, leaves IDLE in the reply
buffer, and negates ATTNn. -/
def Obligations.PortResetKeepsLevelsAndRights : Prop :=
  ∀ (p : PortId) (s : State), s.takes p →
    (let left := fun pt : Port =>
       Port.mk pt.raceControl false false [] .idle none none [] pt.attentionLevel pt.shedLevel 0 0 0 false
     exec (.portReset p) s = .next (s.modPort p left) ∧ (left s.ports[p]).attention = false)

/-- R155, Table 9-3: SELECT of a record in its table's range loads that table's default record UNCONDITIONAL at field 1 and
sets the cursor; any other table (place 1) or index (place 2) is refused RANGE. The default images are those of R1, R3,
R6, R38, R56, R60, R81 and R128; the bytes of read-only fields cannot be seen in a staging (log 21). -/
def Obligations.SelectLoadsTheDefaultRecord : Prop :=
  ∀ (p : PortId) (table index : Byte) (s : State), s.takes p →
    (∀ ref : RecordRef, ref.table = table → ref.index = index →
      exec (.select p table index) s = .next ((s.modPort p fun pt =>
        { pt with staging := some (Staging.mk .unconditional ref ref.defaultImage 1), cursor := some ref }).answer p
          (.done [])) ∧
      (table = 0 → ref.defaultImage.take 7 = [1, 0, 1, 0, 250, 0, 0]) ∧
      (table = 1 → ref.defaultImage.take 13 = [1, 0, 0, 0, 0, 0, 0xFF, 1, 0x90, 0, 80, 5, 0xDC]) ∧
      (table = 2 → ref.defaultImage.take 5 = [1, 0, 0, 0xFF, 0]) ∧
      (table = 3 → ref.defaultImage.take 4 = [0, 0, 63, 0]) ∧
      (table = 4 → ref.defaultImage.take 2 = [0, 0]) ∧
      (table = 5 → ref.defaultImage.take 11 = [24, 20, 7, 0xD0, 10, 16, 2, 0x58, 16, 1, 1])) ∧
    (7 < table.toNat → exec (.select p table index) s = .next (s.answer p (.refused (.range 1)))) ∧
    (table.toNat ≤ 7 → (∀ ref : RecordRef, ref.table = table → ref.index ≠ index) →
      exec (.select p table index) s = .next (s.answer p (.refused (.range 2)))) ∧
    ((∃ ref : RecordRef, ref.table = table ∧ ref.index = index) ↔
      (table = 0 ∧ index.toNat < 64) ∨ (table = 1 ∧ index.toNat < 32) ∨ (table = 2 ∧ index.toNat < 128) ∨
      (table = 3 ∧ 1 ≤ index.toNat ∧ index.toNat ≤ 16) ∨ (table = 4 ∧ 1 ≤ index.toNat ∧ index.toNat ≤ 4) ∨
      (table = 5 ∧ index = 0) ∨ (table = 6 ∧ index.toNat < 24) ∨ (table = 7 ∧ 1 ≤ index.toNat ∧ index.toNat ≤ 16))

/-- R5, R10, R38, R81, R111, R156, R166: FETCH stages the record at the cursor as it stands, CONDITIONAL on its revision,
returns it whole, byte for byte as R166 lays it out, and advances the cursor; with the cursor absent it is refused
NO_STAGING. -/
def Obligations.FetchReadsTheRecordAtTheCursor : Prop :=
  recordCodes ∧ ∀ (p : PortId) (s : State), s.takes p →
    ((s.ports[p]).cursor = none → exec (.fetch p) s = .next (s.answer p (.refused .noStaging))) ∧
    ∀ ref : RecordRef, (s.ports[p]).cursor = some ref →
      exec (.fetch p) s = .next ((s.modPort p fun pt =>
        { pt with
          staging := some (Staging.mk (.conditional (s.revisionOf ref)) ref (s.recordImage ref) 1),
          cursor := some ref.next }).answer p (.done (ref.table :: ref.index :: s.recordImage ref))) ∧
      s.recordForm ref (s.recordImage ref) ∧
      ref.next.table = ref.table ∧
      (ref.next.index = ref.index + 1 ∨
        (ref.index.toNat = (match ref with
            | .zone _ => 63 | .switch _ => 31 | .sensor _ => 127 | .binding _ => 16 | .marshal _ => 4 | .settings => 0
            | .handset _ => 23 | .car _ => 16) ∧
          ref.next.index.toNat = (match ref with
            | .binding _ => 1 | .marshal _ => 1 | .car _ => 1
            | .zone _ => 0 | .switch _ => 0 | .sensor _ => 0 | .settings => 0 | .handset _ => 0)))

/-- R157: PUT on an EMPTY staging and on a read-only table; values that end part way through a field or run on past the last
writable field (which field is named there, log 9); values that leave a writable field to come, stored as sent from the
field pointer on; and values that pass the last one, which are applied at once. The sizes are those of R166. -/
def Obligations.PutWritesFromTheFieldPointer : Prop :=
  ∀ (p : PortId) (values : List Byte) (s : State), s.takes p → 1 ≤ values.length → values.length ≤ 16 →
    ((s.ports[p]).staging = none → exec (.put p values) s = .next (s.answer p (.refused .noStaging))) ∧
    ∀ st : Staging, (s.ports[p]).staging = some st →
      (st.ref.readOnly = true → exec (.put p values) s = .next ((s.modPort p fun pt =>
        { pt with staging := none }).answer p (.refused .readOnly))) ∧
      (st.ref.readOnly = false → 1 ≤ st.field → st.field ≤ st.ref.fieldSizes.length →
        let start := (st.ref.fieldSizes.take (st.field - 1)).sum
        let written := overwrite st.image start values
        (∀ k : Nat, st.field < k → k ≤ st.ref.fieldSizes.length →
          start + values.length = (st.ref.fieldSizes.take (k - 1)).sum →
          exec (.put p values) s = .next ((s.modPort p fun pt =>
            { pt with staging := some (Staging.mk st.mode st.ref written k) }).answer p (.done [BitVec.ofNat 8 k]))) ∧
        (start + values.length = st.ref.fieldSizes.sum →
          exec (.put p values) s = exec (.apply p) (s.modPort p fun pt =>
            { pt with staging := some (Staging.mk st.mode st.ref written (st.ref.fieldSizes.length + 1)) })) ∧
        (∀ k : Nat, 1 ≤ k → k ≤ st.ref.fieldSizes.length →
          (st.ref.fieldSizes.take (k - 1)).sum < start + values.length →
          start + values.length < (st.ref.fieldSizes.take k).sum →
          exec (.put p values) s = .next ((s.modPort p fun pt =>
            { pt with staging := none }).answer p (.refused (.range (BitVec.ofNat 8 k))))) ∧
        (st.ref.fieldSizes.sum < start + values.length →
          ∃ (k : Byte) (n : Nat), exec (.put p values) s = .next ((({ s with freeCount := n }).modPort p fun pt =>
            { pt with staging := none }).answer p (.refused (.range k)))))

/-- R9, R57, R128, R158: APPLY of an EMPTY staging, tests 1 to 4 in order, and the RANGE refusal of test 5 by the first
field out of range; the staging is EMPTY afterwards and nothing else changes. -/
def Obligations.ApplyTestsInOrder : Prop :=
  ∀ (p : PortId) (s : State), s.takes p →
    ((s.ports[p]).staging = none → exec (.apply p) s = .next (s.answer p (.refused .noStaging))) ∧
    ∀ (st : Staging) (r : Reason), (s.ports[p]).staging = some st →
      (r = .readOnly ∧ st.ref.readOnly = true ∨
       r = .notPermitted ∧ st.ref.readOnly = false ∧ (s.ports[p]).raceControl = false ∨
       r = .phase ∧ st.ref.isGeometry = true ∧ (s.ports[p]).raceControl = true ∧ s.geo.phase = .run ∨
       r = .staleRecord ∧ st.ref.readOnly = false ∧ (s.ports[p]).raceControl = true ∧
         (st.ref.isGeometry = true → s.geo.phase = .layout) ∧
         (∃ rev : Option Byte, st.mode = .conditional rev ∧ rev ≠ s.revisionOf st.ref) ∨
       (∃ k : Nat, r = .range (BitVec.ofNat 8 (k + 1)) ∧ s.mayApply p st ∧
         (∀ j : Nat, j < k → (fieldTests st.ref st.image)[j]? = some true) ∧
         (fieldTests st.ref st.image)[k]? = some false)) →
      exec (.apply p) s = .next ((s.modPort p fun pt => { pt with staging := none }).answer p
        (.refused r))

/-- R5, R7, R8, R9, R128: an apply of a zone, switch, sensor or settings record with every field in range replaces the
record, moves its revision by one and replies table, index and revision; the settings also offer SETTINGS to race
control. -/
def Obligations.ApplyReplacesTheRecord : Prop :=
  ∀ (p : PortId) (s : State) (st : Staging), s.mayApply p st → (∀ b ∈ fieldTests st.ref st.image, b = true) →
    (∀ (z : ZoneId) (x : Zone), st.ref = .zone z → st.image = x.image →
      exec (.apply p) s = .next (((s.putZone z { x with revision := s.geo.zones[z].revision + 1 }).modPort p fun pt =>
        { pt with staging := none }).answer p
          (.done [0, BitVec.ofNat 8 z.val, s.geo.zones[z].revision + 1]))) ∧
    (∀ (w : SwitchId) (x : Switch) (rs : RunState) (ps : Position), st.ref = .switch w → st.image = x.image rs ps →
      exec (.apply p) s = .next (((s.putSwitchRecord w { x with revision := s.geo.switches[w].revision + 1 }).modPort p fun pt =>
        { pt with staging := none }).answer p
          (.done [1, BitVec.ofNat 8 w.val, s.geo.switches[w].revision + 1]))) ∧
    (∀ (n : SensorId) (kind : SensorKind) (defined : Bool) (owner : PortId) (k zone switch rev : Byte),
      st.ref = .sensor n →
      st.image = [if defined then 1 else 0, k, zone, switch, BitVec.ofNat 8 owner.val, rev] →
      (k = 0 ∧ (∃ z : ZoneId, zone = BitVec.ofNat 8 z.val ∧ kind = .boundary z) ∨
       k = 1 ∧ (∃ (z : ZoneId) (w : SwitchId), zone = BitVec.ofNat 8 z.val ∧ switch = BitVec.ofNat 8 w.val ∧
         kind = .entry z w) ∨
       k = 2 ∧ kind = .pairing) →
      exec (.apply p) s = .next (((s.putSensor n (Sensor.mk defined kind owner (s.geo.sensors[n].revision + 1))).modPort p fun pt =>
        { pt with staging := none }).answer p
          (.done [2, BitVec.ofNat 8 n.val, s.geo.sensors[n].revision + 1]))) ∧
    ∀ x : Settings, st.ref = .settings → st.image = x.image →
      exec (.apply p) s = .next ((((s.putSettings { x with revision := s.course.settings.revision + 1 }).modPort p fun pt =>
          { pt with staging := none }).offerRaceControl (.settings (s.course.settings.revision + 1))).answer p
            (.done [5, 0, s.course.settings.revision + 1]))

/-- R41, R42, R45, R57, R58: an apply of a binding record in range is refused IN_USE or MARSHAL by its identity, or
replaces identity, ceiling and permit as one change carried to its neighbours. -/
def Obligations.BindingApplySetsTheCar : Prop :=
  ∀ (p : PortId) (s : State) (st : Staging) (c : CarId) (i : Ident) (ceiling permit : Byte) (tail : List Byte)
    (new : Option Ident), s.mayApply p st → s.identitiesOk → st.ref = .binding c →
    st.image = i.extractLsb' 8 8 :: i.extractLsb' 0 8 :: ceiling :: permit :: tail →
    ceiling.toNat ≤ 63 → permit.toNat ≤ 1 → new = (if i = 0 ∨ i = 0xFFFF then none else some i) →
    (let emptied := s.modPort p fun pt => { pt with staging := none }
     let other := ∃ (k : CarId) (a : Held), k ≠ c ∧ s.binding.bindings[k].held = some a ∧ new = some a.identity
     let listed := ∃ m : MarshalId, s.binding.marshals[m].identity = new ∧ new ≠ none
     let b := s.binding.bindings[c]
     (other → exec (.apply p) s = .next (emptied.answer p (.refused .inUse))) ∧
     (¬ other → listed → exec (.apply p) s = .next (emptied.answer p (.refused .marshal))) ∧
     (¬ other → ¬ listed → ∃ (t : State) (held : Option Held), exec (.apply p) s = .next t ∧
       held.map (·.identity) = new ∧
       (∀ a : Held, held = some a → a.source = .manual ∧
         (∀ old : Held, b.held = some old → old.identity = a.identity → a.state = old.state) ∧
         (b.held.map (·.identity) ≠ new →
           (a.state = .bound ∨ a.state = .reserved) ∧
           (a.state = .bound ↔ ∃ (h : HandsetId) (r : Handset), s.handsets.records[h] = some r ∧
             r.identity = a.identity ∧ r.link = .live))) ∧
       t.binding.bindings[c] =
         Binding.mk held (ceiling.setWidth 6) (if permit = 1 then .barred else .allowed) (b.revision + 1) .dirty ∧
       (∀ k : CarId, k ≠ c → t.binding.bindings[k] = s.binding.bindings[k]) ∧
       s.neighboursFollow t c (b.held.map (·.identity)) new ∧
       t = { s with
         binding := { s.binding with bindings := t.binding.bindings }, handsets := t.handsets,
         lane := { s.lane with intents := t.lane.intents },
         ports := ((emptied.offerRaceControl (.binding c held (b.revision + 1))).answer p
           (.done [3, BitVec.ofNat 8 (c.val + 1), b.revision + 1])).ports }))

/-- R20, R33, R61: an apply of a marshal entry is refused IN_USE for an identity that a car or another entry holds, or sets the
identity and carries the flags to the Handset Table, where a LOST record that is no longer a marshal's nor bound is freed.
The full-alert flag becomes ARMED where a record is freed, and else stays. -/
def Obligations.MarshalApplySetsTheEntry : Prop :=
  ∀ (p : PortId) (s : State) (st : Staging) (m : MarshalId) (i : Ident) (tail : List Byte) (new : Option Ident),
    s.mayApply p st → s.identitiesOk → st.ref = .marshal m →
    st.image = i.extractLsb' 8 8 :: i.extractLsb' 0 8 :: tail →
    new = (if i = 0 ∨ i = 0xFFFF then none else some i) →
    (let emptied := s.modPort p fun pt => { pt with staging := none }
     let used := (∃ (k : CarId) (a : Held), s.binding.bindings[k].held = some a ∧ new = some a.identity) ∨
       ∃ n : MarshalId, n ≠ m ∧ s.binding.marshals[n].identity = new ∧ new ≠ none
     let e := s.binding.marshals[m]
     (used → exec (.apply p) s = .next (emptied.answer p (.refused .inUse))) ∧
     (¬ used → ∃ t : State, exec (.apply p) s = .next t ∧
       (e.identity = new → t.handsets = s.handsets) ∧
       (e.identity ≠ new → s.armsOnFreeing t ∧ ∀ h : HandsetId,
         (s.handsets.records[h] = none → t.handsets.records[h] = none) ∧
         ∀ r : Handset, s.handsets.records[h] = some r →
           (new = some r.identity → t.handsets.records[h] = some { r with marshal := true }) ∧
           (e.identity = some r.identity → r.link = .lost → r.boundCar = none → t.handsets.records[h] = none) ∧
           (e.identity = some r.identity → (r.link ≠ .lost ∨ r.boundCar ≠ none) →
             t.handsets.records[h] = some { r with marshal := false }) ∧
           (new ≠ some r.identity → e.identity ≠ some r.identity → t.handsets.records[h] = some r)) ∧
       t = { s.putMarshal m (MarshalEntry.mk new (e.revision + 1) .dirty) with
         handsets := t.handsets,
         ports := ((emptied.offerRaceControl (.marshalList m new (e.revision + 1))).answer p
           (.done [4, BitVec.ofNat 8 (m.val + 1), e.revision + 1])).ports }))

/-! ## Handset reception -/

/-- R21, R23, R25: a report out of range is refused RANGE with the place of an offending value (which of several, log 10); a
duplicate or late report moves its count alone; a report of an unknown identity meeting a full table is dropped, with
the alert of an ARMED flag. -/
def Obligations.DroppedReportsMoveOnlyTheirCounts : Prop :=
  ∀ (p : PortId) (identity : Ident) (count throttle code battery strength : Byte) (s : State),
    (s.takes p → ¬ reportInRange identity count throttle code strength →
      ∃ (k : Byte) (n : Nat),
        (k = 1 ∧ (identity = 0 ∨ identity = 0xFFFF) ∨ k = 2 ∧ 15 < count.toNat ∨ k = 3 ∧ 63 < throttle.toNat ∨
          k = 4 ∧ 15 < code.toNat ∨ k = 6 ∧ 15 < strength.toNat) ∧
        exec (.reportHandset p identity count throttle code battery strength) s =
          .next (({ s with freeCount := n }).answer p (.refused (.range k)))) ∧
    (∀ (h : HandsetId) (r : Handset), s.hears p h r identity count throttle code strength →
      (r.link = .acquiring ∨ r.link = .live) →
      (r.difference count = 0 → exec (.reportHandset p identity count throttle code battery strength) s =
        .next ((s.putRecord h (some { r with duplicateCount := min (r.duplicateCount + 1) 255 })).answer p
          (.done [1]))) ∧
      (8 ≤ r.difference count → exec (.reportHandset p identity count throttle code battery strength) s =
        .next ((s.putRecord h (some { r with lateCount := min (r.lateCount + 1) 255 })).answer p (.done [2])))) ∧
    (s.takes p → reportInRange identity count throttle code strength →
      (∀ h : HandsetId, ∃ r : Handset, s.handsets.records[h] = some r ∧ r.identity ≠ identity) →
      (s.handsets.fullAlert = .sent → exec (.reportHandset p identity count throttle code battery strength) s =
        .next (s.answer p (.done [3]))) ∧
      (s.handsets.fullAlert = .armed → exec (.reportHandset p identity count throttle code battery strength) s =
        .next ((({ s with handsets := { s.handsets with fullAlert := .sent } }).offerRaceControl
          (.handsetTableFull identity)).answer p (.done [3]))))

/-- R20, R22, R26, R27: a report of an unknown identity takes the lowest free record, in ACQUIRING, with its bound car and
marshal flag, and is accepted. -/
def Obligations.FirstReportTakesTheLowestFreeRecord : Prop :=
  ∀ (p : PortId) (identity : Ident) (count throttle code battery strength : Byte) (h : HandsetId) (s : State),
    s.takes p → reportInRange identity count throttle code strength →
    (∀ (k : HandsetId) (r : Handset), s.handsets.records[k] = some r → r.identity ≠ identity) →
    s.handsets.records[h] = none → (∀ k : HandsetId, k < h → s.handsets.records[k] ≠ none) →
    ∃ (car : Option CarId) (marshal : Bool),
      (∀ c : CarId, car = some c → ∃ a : Held, s.binding.bindings[c].held = some a ∧ a.identity = identity) ∧
      (car = none → ∀ (c : CarId) (a : Held), s.binding.bindings[c].held = some a → a.identity ≠ identity) ∧
      (marshal = true ↔ ∃ m : MarshalId, s.binding.marshals[m].identity = some identity) ∧
      (let r := Handset.mk identity .acquiring (count.setWidth 4) (throttle.setWidth 6) 0 (code.setWidth 4) p
         (battery.getLsbD 0) (strength.setWidth 4) car marshal 0 0 s.now s.now
       exec (.reportHandset p identity count throttle code battery strength) s = .next
         (((s.putRecord h (some r)).batteryNotice p { r with batteryLow := false } battery).answer p (.done [0])))

/-- R24, R26, R28, R31, R36: an accepted report that makes no LIVE transition and no edge to a lane code or PAIR writes its
record, offers BATTERY on a change of mark, and changes nothing else. -/
def Obligations.AcceptedReportWritesItsRecord : Prop :=
  ∀ (p : PortId) (identity : Ident) (count throttle code battery strength : Byte) (h : HandsetId) (r : Handset)
    (link : LinkState) (s : State), s.hears p h r identity count throttle code strength →
    (r.link = .acquiring ∧ 2 ≤ r.difference count ∧ r.difference count ≤ 7 ∧ link = .acquiring ∨
      r.link = .live ∧ 1 ≤ r.difference count ∧ r.difference count ≤ 7 ∧ link = .live ∨
      (r.link = .stale ∨ r.link = .lost) ∧ link = .acquiring) →
    (¬ r.edge code ∨ code = 0 ∨ 5 ≤ code.toNat) →
    exec (.reportHandset p identity count throttle code battery strength) s = .next
      (((s.putRecord h (some (r.reported p count throttle code battery strength link s.now))).batteryNotice p r
        battery).answer p (.done [0]))

/-- R28, R34, R35, R43: the next count takes an ACQUIRING record to LIVE; its RESERVED or SUSPENDED car becomes BOUND, as a
change with its BINDING notice, and then HANDSET_STATE is offered for a bound or marshal record. -/
def Obligations.NextCountMakesTheHandsetLive : Prop :=
  ∀ (p : PortId) (identity : Ident) (count throttle code battery strength : Byte) (h : HandsetId) (r : Handset)
    (s : State), s.hears p h r identity count throttle code strength → r.link = .acquiring → r.difference count = 1 →
    (¬ r.edge code ∨ code = 0 ∨ 5 ≤ code.toNat) →
    (let u := s.putRecord h (some (r.reported p count throttle code battery strength .live s.now))
     let cmd := Instr.reportHandset p identity count throttle code battery strength
     (r.boundCar = none → r.marshal = false →
       exec cmd s = .next ((u.batteryNotice p r battery).answer p (.done [0]))) ∧
     (∀ m : MarshalId, r.boundCar = none → r.marshal = true → s.marshalOf identity = some m →
       exec cmd s = .next (((u.offerWithRaceControl p (.handsetState identity .live (.marshal m))).batteryNotice p r
         battery).answer p (.done [0]))) ∧
     (∀ (c : CarId) (a : Held), r.boundCar = some c → s.binding.bindings[c].held = some a → a.state = .bound →
       exec cmd s = .next (((u.offerWithRaceControl p (.handsetState identity .live (.car c))).batteryNotice p r
         battery).answer p (.done [0]))) ∧
     (∀ (c : CarId) (a : Held), r.boundCar = some c → s.binding.bindings[c].held = some a → a.state ≠ .bound →
       exec cmd s = .next (((((u.putBinding c { s.binding.bindings[c] with
           held := some { a with state := .bound }, revision := s.binding.bindings[c].revision + 1,
           mark := .dirty }).offerRaceControl (.binding c (some { a with state := .bound })
             (s.binding.bindings[c].revision + 1))).offerWithRaceControl p
               (.handsetState identity .live (.car c))).batteryNotice p r battery).answer p (.done [0]))))

/-- R26, R36, R37, R83: an edge to SHIFT_IN, SHIFT_OUT or PIT of a handset that is no marshal's, completed by an accepted
report in any link state, sets the intent of the car that is BOUND to it, with a fresh life, and of no other. A report that
takes the handset to LIVE hands that on first, so a car that becomes BOUND by it is BOUND for the edge (R43). -/
def Obligations.LaneEdgeSetsTheIntent : Prop :=
  ∀ (p : PortId) (identity : Ident) (count throttle code battery strength : Byte) (h : HandsetId) (r : Handset)
    (lane : LaneCode) (s : State), s.hears p h r identity count throttle code strength → r.accepts count →
    r.marshal = false → r.edge code →
    (code = 1 ∧ lane = .shiftIn ∨ code = 2 ∧ lane = .shiftOut ∨ code = 3 ∧ lane = .pit) →
    (let u := s.accepted p h r count throttle code battery strength
     let cmd := Instr.reportHandset p identity count throttle code battery strength
     (∀ (c : CarId) (a : Held), s.identitiesOk → u.binding.bindings[c].held = some a → a.identity = identity →
       a.state = .bound →
       exec cmd s = .next ((u.putIntent c (some (Intent.mk lane (s.now + s.course.settings.intentLife.setWidth 32)))).answer p
         (.done [0]))) ∧
     ((∀ (c : CarId) (a : Held), u.binding.bindings[c].held = some a → a.identity = identity → a.state ≠ .bound) →
       exec cmd s = .next (u.answer p (.done [0]))))

/-- R26, R121, Table 6-4: what a marshal's lane edge does to the course, and its MARSHAL_ACTION notice, by the link state
that the accepted report leaves: the count that takes the handset to LIVE completes an edge of a LIVE handset. -/
def Obligations.MarshalEdgeActsOnTheCourse : Prop :=
  ∀ (p : PortId) (identity : Ident) (count throttle code battery strength : Byte) (h : HandsetId) (r : Handset)
    (lane : LaneCode) (s : State), s.hears p h r identity count throttle code strength → r.accepts count →
    r.marshal = true → r.edge code →
    (code = 1 ∧ lane = .shiftIn ∨ code = 2 ∧ lane = .shiftOut ∨ code = 3 ∧ lane = .pit) →
    (let u := s.accepted p h r count throttle code battery strength
     let cmd := Instr.reportHandset p identity count throttle code battery strength
     (r.linkAfter count ≠ .live →
       exec cmd s = .next ((u.offerWithRaceControl p (.marshalAction identity lane .notLive)).answer p (.done [0]))) ∧
     (r.linkAfter count = .live → lane = .shiftIn → s.course.course = .green →
       exec cmd s = .next ((((u.putCourse .caution s.course.lampCount s.course.nextLamp).offerAll
         (.course .caution .green s.course.lampCount (.marshal identity))).offerWithRaceControl p
           (.marshalAction identity lane .applied)).answer p (.done [0]))) ∧
     (r.linkAfter count = .live → lane = .pit → s.course.course ≠ .stop →
       exec cmd s = .next ((((u.putCourse .stop 0 none).offerAll
         (.course .stop s.course.course 0 (.marshal identity))).offerWithRaceControl p
           (.marshalAction identity lane .applied)).answer p (.done [0]))) ∧
     (r.linkAfter count = .live →
       (lane = .shiftOut ∨ lane = .shiftIn ∧ s.course.course ≠ .green ∨ lane = .pit ∧ s.course.course = .stop) →
       exec cmd s = .next ((u.offerWithRaceControl p (.marshalAction identity lane .noEffect)).answer p (.done [0]))))

/-- R26, R51, R52, R53, R55: a PAIR edge that pairs nothing, completed by an accepted report in any link state: PAIR_CLOSED, a
marshal's edge ignored, PAIR_WEAK, PAIR_NO_CAR and PAIR_SAME, which consumes the offer. -/
def Obligations.PairEdgeThatPairsNothing : Prop :=
  ∀ (p : PortId) (identity : Ident) (count throttle battery strength : Byte) (h : HandsetId) (r : Handset)
    (s : State), s.hears p h r identity count throttle 4 strength → r.accepts count → r.edge 4 →
    (let u := s.accepted p h r count throttle 4 battery strength
     let cmd := Instr.reportHandset p identity count throttle 4 battery strength
     let tell := fun (v : State) (result : PairResult) (c : Option CarId) =>
       (v.offerWithRaceControl p (.pairResult identity result c)).answer p (.done [0])
     (s.binding.window = none → exec cmd s = .next (tell u .closed none)) ∧
     (s.binding.window ≠ none → r.marshal = true → exec cmd s = .next (u.answer p (.done [0]))) ∧
     (s.binding.window ≠ none → r.marshal = false → strength.toNat < s.course.settings.pairingFloor.toNat →
       exec cmd s = .next (tell u .weak none)) ∧
     (s.binding.window ≠ none → r.marshal = false → s.course.settings.pairingFloor.toNat ≤ strength.toNat →
       (∀ o ∈ s.binding.offers, s.geo.sensors[o.sensor].owner ≠ p) → exec cmd s = .next (tell u .noCar none)) ∧
     (∀ (before after : List Offer) (o : Offer) (a : Held), s.binding.window ≠ none → r.marshal = false →
       s.course.settings.pairingFloor.toNat ≤ strength.toNat → s.binding.offers = before ++ o :: after →
       (∀ q ∈ before, s.geo.sensors[q.sensor].owner ≠ p) → s.geo.sensors[o.sensor].owner = p →
       s.lampsAndOffersOk → s.binding.bindings[o.car].held = some a → a.identity = identity →
       exec cmd s = .next (tell (u.putOffers (before ++ after)) .same (some o.car))))

/-- R26, R33, R41, R42, R45, R54, R55: a matched PAIR edge, completed by an accepted report in any link state, vacates the car
that held the identity, gives the identity to the offered car as PAIRED, BOUND if the report leaves the handset LIVE and
else RESERVED, carries both changes to their neighbours, and removes the offer. Free records stay free; the full-alert
flag becomes ARMED where a record is freed, and else stays. -/
def Obligations.PairEdgeGivesTheOfferedCar : Prop :=
  ∀ (p : PortId) (identity : Ident) (count throttle battery strength : Byte) (h : HandsetId) (r : Handset)
    (before after : List Offer) (o : Offer) (s : State), s.hears p h r identity count throttle 4 strength →
    s.identitiesOk → s.lampsAndOffersOk → r.accepts count → r.marshal = false → r.edge 4 → s.binding.window ≠ none →
    s.course.settings.pairingFloor.toNat ≤ strength.toNat → s.binding.offers = before ++ o :: after →
    (∀ q ∈ before, s.geo.sensors[q.sensor].owner ≠ p) → s.geo.sensors[o.sensor].owner = p →
    s.binding.bindings[o.car].held.map (·.identity) ≠ some identity →
    (let u := s.accepted p h r count throttle 4 battery strength
     let b := s.binding.bindings[o.car]
     let held := Held.mk identity .paired (if r.linkAfter count = .live then .bound else .reserved)
     ∃ t : State, exec (.reportHandset p identity count throttle 4 battery strength) s = .next t ∧
       t.binding.bindings[o.car] = { b with held := some held, revision := b.revision + 1, mark := .dirty } ∧
       (∀ k : CarId, k ≠ o.car → r.boundCar ≠ some k → t.binding.bindings[k] = s.binding.bindings[k] ∧
         t.lane.intents[k] = s.lane.intents[k]) ∧
       (∀ k : CarId, r.boundCar = some k → t.lane.intents[k] = none ∧ t.binding.bindings[k] =
         { u.binding.bindings[k] with
           held := none, revision := u.binding.bindings[k].revision + 1, mark := .dirty }) ∧
       t.lane.intents[o.car] = none ∧
       t.handsets.records[h] =
         some { r.reported p count throttle 4 battery strength (r.linkAfter count) s.now with boundCar := some o.car } ∧
       s.armsOnFreeing t ∧
       (∀ k : HandsetId, s.handsets.records[k] = none → t.handsets.records[k] = none) ∧
       (∀ (k : HandsetId) (q : Handset), k ≠ h → s.handsets.records[k] = some q →
         (b.held.map (·.identity) ≠ some q.identity → t.handsets.records[k] = some q) ∧
         (b.held.map (·.identity) = some q.identity → q.link = .lost → t.handsets.records[k] = none) ∧
         (b.held.map (·.identity) = some q.identity → q.link ≠ .lost →
           t.handsets.records[k] = some { q with boundCar := none })) ∧
       t = { s with
         handsets := t.handsets, lane := { s.lane with intents := t.lane.intents },
         binding := { s.binding with bindings := t.binding.bindings, offers := before ++ after },
         ports := ((((r.boundCar.elim u fun k => u.offerRaceControl
             (.binding k none (u.binding.bindings[k].revision + 1))).offerRaceControl
           (.binding o.car (some held) (b.revision + 1))).offerWithRaceControl p
             (.pairResult identity .ok (some o.car))).answer p (.done [0])).ports })

/-- R29, R30, R32, R33, R35, R44: 60 ms after the report stamp a record goes STALE with its codes cleared; 3000 ms after its
state stamp a STALE record goes LOST, and a BOUND car becomes SUSPENDED, a RESERVED one stays. HANDSET_STATE is offered
for a bound or marshal record; a LOST record that is neither is freed without a notice. -/
def Obligations.SilentHandsetsGoStaleAndLost : Prop :=
  ∀ (h : HandsetId) (r : Handset) (s : State), s.handsets.records[h] = some r →
    (let u := s.putRecord h (some { r with link := .stale, heldCode := 0, candidateCode := 0, stateStamp := s.now })
     (r.link = .acquiring ∨ r.link = .live) → (s.now - (r.reportStamp + 60)).toNat < 2 ^ 31 →
     (r.boundCar = none → r.marshal = false → exec (.staleExpiry h) s = .next u) ∧
     (∀ c : CarId, r.boundCar = some c → exec (.staleExpiry h) s =
       .next (u.offerWithRaceControl r.heardStation (.handsetState r.identity .stale (.car c)))) ∧
     (∀ m : MarshalId, r.boundCar = none → r.marshal = true → s.marshalOf r.identity = some m →
       exec (.staleExpiry h) s =
         .next (u.offerWithRaceControl r.heardStation (.handsetState r.identity .stale (.marshal m))))) ∧
    (let u := s.putRecord h (some { r with link := .lost, stateStamp := s.now })
     r.link = .stale → (s.now - (r.stateStamp + 3000)).toNat < 2 ^ 31 →
     (r.boundCar = none → r.marshal = false → exec (.handsetLostExpiry h) s =
       .next { s with handsets :=
         { s.handsets with records := modAt s.handsets.records h fun _ => none, fullAlert := .armed } }) ∧
     (∀ m : MarshalId, r.boundCar = none → r.marshal = true → s.marshalOf r.identity = some m →
       exec (.handsetLostExpiry h) s =
         .next (u.offerWithRaceControl r.heardStation (.handsetState r.identity .lost (.marshal m)))) ∧
     (∀ (c : CarId) (a : Held), r.boundCar = some c → s.binding.bindings[c].held = some a → a.state ≠ .bound →
       exec (.handsetLostExpiry h) s =
         .next (u.offerWithRaceControl r.heardStation (.handsetState r.identity .lost (.car c)))) ∧
     (∀ (c : CarId) (a : Held), r.boundCar = some c → s.binding.bindings[c].held = some a → a.state = .bound →
       exec (.handsetLostExpiry h) s = .next (((u.putBinding c { s.binding.bindings[c] with
           held := some { a with state := .suspended }, revision := s.binding.bindings[c].revision + 1,
           mark := .dirty }).offerRaceControl (.binding c (some { a with state := .suspended })
             (s.binding.bindings[c].revision + 1))).offerWithRaceControl r.heardStation
               (.handsetState r.identity .lost (.car c)))))

/-! ## Pairing -/

/-- R46, R47, R50: OPEN PAIRING refused RANGE or STATE or taken, CLOSE PAIRING, the window's expiry, and the expiry of an
offer. -/
def Obligations.PairingWindowOpensAndCloses : Prop :=
  ∀ (p : PortId) (n : Byte) (c : CarId) (s : State),
    (let shut := ({ s with binding := { s.binding with window := none, offers := [] } }).offerAll (.pairing none)
     (s.takes p → (s.ports[p]).raceControl = true →
       (¬ (5 ≤ n.toNat ∧ n.toNat ≤ 120) → exec (.openPairing p n) s = .next (s.answer p (.refused (.range 1)))) ∧
       (5 ≤ n.toNat ∧ n.toNat ≤ 120 → s.course.course = .countdown →
         exec (.openPairing p n) s = .next (s.answer p (.refused .state))) ∧
       (5 ≤ n.toNat ∧ n.toNat ≤ 120 → s.course.course ≠ .countdown →
         exec (.openPairing p n) s = .next ((({ s with binding := { s.binding with
           window := some (s.now + BitVec.ofNat 32 (n.toNat * 1000)) } }).offerAll (.pairing (some n))).answer p
             (.done []))) ∧
       (s.binding.window = none → exec (.closePairing p) s = .next (s.answer p (.done []))) ∧
       (s.binding.window ≠ none → exec (.closePairing p) s = .next (shut.answer p (.done [])))) ∧
     (∀ d : Time, s.binding.window = some d → (s.now - d).toNat < 2 ^ 31 → exec .pairingWindowExpiry s = .next shut) ∧
     (∀ (before after : List Offer) (o : Offer), s.lampsAndOffersOk → s.binding.offers = before ++ o :: after →
       o.car = c → (s.now - (o.stamp + 4000)).toNat < 2 ^ 31 →
       exec (.offerExpiry c) s = .next (s.putOffers (before ++ after))))

/-- R41, R42, R45, R59: RELEASE makes a car VACANT, keeps its ceiling and permit, and carries the change to its neighbours; a
VACANT car is left as it is, and a car number outside 1..16 is refused RANGE. -/
def Obligations.ReleaseMakesTheCarVacant : Prop :=
  ∀ (p : PortId) (n : Byte) (s : State), s.takes p → (s.ports[p]).raceControl = true →
    (¬ (1 ≤ n.toNat ∧ n.toNat ≤ 16) → exec (.release p n) s = .next (s.answer p (.refused (.range 1)))) ∧
    ∀ c : CarId, n = BitVec.ofNat 8 (c.val + 1) →
      (s.binding.bindings[c].held = none → exec (.release p n) s = .next (s.answer p (.done []))) ∧
      (∀ a : Held, s.identitiesOk → s.binding.bindings[c].held = some a → ∃ t : State,
        exec (.release p n) s = .next t ∧ s.neighboursFollow t c (some a.identity) none ∧
        t.binding = (s.putBinding c { s.binding.bindings[c] with
          held := none, revision := s.binding.bindings[c].revision + 1, mark := .dirty }).binding ∧
        t = { s with
          binding := t.binding,
          handsets := t.handsets, lane := { s.lane with intents := t.lane.intents },
          ports := ((s.offerRaceControl (.binding c none (s.binding.bindings[c].revision + 1))).answer p
            (.done [])).ports })

/-! ## Crossings -/

/-- R49, R66, R67, R68, R69: a crossing that places no car: refused by the first test it fails, offered or met by a closed
window at a PAIRING sensor, dropped DUPLICATE, or dropped LATE with its notice. -/
def Obligations.CrossingsThatPlaceNoCar : Prop :=
  ∀ (p : PortId) (sensor car age : Byte) (s : State), s.takes p →
    (let cmd := Instr.reportCrossing p sensor car age
     let stamp := s.now - age.setWidth 32
     (s.geo.phase = .layout → exec cmd s = .next (s.answer p (.refused .phase))) ∧
     (s.geo.phase = .run → (∀ n : SensorId, sensor = BitVec.ofNat 8 n.val → s.geo.sensors[n].defined = false) →
       exec cmd s = .next (s.answer p (.refused (.range 1)))) ∧
     ∀ n : SensorId, s.geo.phase = .run → sensor = BitVec.ofNat 8 n.val → s.geo.sensors[n].defined = true →
       (s.geo.sensors[n].owner ≠ p → exec cmd s = .next (s.answer p (.refused .notOwner))) ∧
       (s.geo.sensors[n].owner = p → ¬ (1 ≤ car.toNat ∧ car.toNat ≤ 16) →
         exec cmd s = .next (s.answer p (.refused (.range 2)))) ∧
       ∀ c : CarId, s.geo.sensors[n].owner = p → car = BitVec.ofNat 8 (c.val + 1) →
         (s.geo.sensors[n].kind = .pairing →
           (s.binding.window = none → exec cmd s = .next (s.answer p (.done [4]))) ∧
           (s.binding.window ≠ none →
             (∀ (before after : List Offer) (o : Offer), s.lampsAndOffersOk → s.binding.offers = before ++ o :: after →
               o.car = c →
               exec cmd s = .next ((s.putOffers (before ++ after ++ [Offer.mk c n stamp])).answer p (.done [3]))) ∧
             ((∀ o ∈ s.binding.offers, o.car ≠ c) →
               (s.binding.offers.length ≤ 3 → exec cmd s =
                 .next ((s.putOffers (s.binding.offers ++ [Offer.mk c n stamp])).answer p (.done [3]))) ∧
               (∀ (head : Offer) (rest : List Offer), s.binding.offers = head :: rest → 3 ≤ rest.length →
                 exec cmd s = .next ((s.putOffers (rest ++ [Offer.mk c n stamp])).answer p (.done [3])))))) ∧
         (s.geo.sensors[n].kind ≠ .pairing →
           (let last := s.tracker.cars[c].lastStamp
            let twice := s.tracker.cars[c].lastSensor = some n ∧
              ((stamp - last).toNat < 100 ∨ (last - stamp).toNat < 100)
            (twice → exec cmd s = .next (s.answer p (.done [1]))) ∧
            ∀ pl : Placed, ¬ twice → s.tracker.cars[c].placed = some pl → (stamp - pl.entryStamp).toInt < 0 →
              exec cmd s = .next ((s.offerRaceControl
                (.lateCrossing c n p (min (pl.entryStamp - stamp).toNat 65535))).answer p (.done [2])))))

/-- R70, R71, R72, R73, R74, R96, R107, R108, R120: what a placed crossing at a BOUNDARY or ENTRY sensor hands on: the car is
placed, its OPEN claims become TAKEN or MISSED, its BUSY cap and its hold end, the conflict test is made, and a jump is
told in COUNTDOWN, with the notices in that order. At a BOUNDARY sensor that is all; at an ENTRY sensor the decision reads
the state it leaves (R71 step 5). The order of several MISSED notices is log 12; that a car which joined by SWITCH with
the crossing's very stamp conflicts is the model's reading of R73 (log 18). -/
def Obligations.PlacedCrossingIsHandedOn : Prop :=
  ∀ (p : PortId) (n : SensorId) (c : CarId) (age : Byte) (z : ZoneId) (s : State),
    s.placesCrossing p n c (s.now - age.setWidth 32) →
    (s.geo.sensors[n].kind = .boundary z ∨ ∃ w : SwitchId, s.geo.sensors[n].kind = .entry z w) →
    (let stamp := s.now - age.setWidth 32
     let placed := s.placeCrossing n z c stamp
     let conflicts := fun o : Occupant => o.car ≠ c ∧ o.way = .switch ∧ s.geo.zones[z].guardTime ≠ 0 ∧
       (stamp - o.entryStamp).toInt < s.geo.zones[z].guardTime.toNat
     let reaches := fun w : SwitchId => s.geo.zones[s.geo.switches[w].targetZone].lane = s.geo.zones[z].lane
     let settled := fun (w : SwitchId) (cl : Claim) =>
       if cl.car = c ∧ cl.outcome = .opened then
         { cl with outcome := if reaches w then .taken else .missed } else cl
     let missed := (List.finRange 32).filter fun w =>
       (s.switch w).mode.claim.any fun cl => cl.car == c && cl.outcome == .opened && !decide (reaches w)
     let t := s.afterCrossing n z c stamp
     (s.geo.sensors[n].kind = .boundary z →
       exec (.reportCrossing p (BitVec.ofNat 8 n.val) (BitVec.ofNat 8 (c.val + 1)) age) s =
         .next (t.answer p (.done [0]))) ∧
     ∃ other : Option CarId,
       (∀ o : CarId, other = some o ↔ ∃ (before after : List Occupant) (x : Occupant),
         placed.tracker.lists[z] = before ++ x :: after ∧ conflicts x ∧ x.car = o ∧ ∀ y ∈ before, ¬ conflicts y) ∧
       (∀ w : SwitchId, (t.switch w).mode = (s.switch w).mode.mapClaim (settled w) ∧
         (t.switch w).position = (s.switch w).position ∧
         (s.lane.pitHolds[c] ≠ some w →
           (t.switch w).holds = (s.switch w).holds ∧ (t.switch w).recheck = (s.switch w).recheck) ∧
         (s.lane.pitHolds[c] = some w →
           (t.switch w).holds = (s.switch w).holds.filter (·.car ≠ c) ∧
           (t.switch w).recheck = if (t.switch w).holds = [] then none else (s.switch w).recheck)) ∧
       t = { s with
         tracker := placed.tracker,
         lane := LaneArbiter.mk s.lane.intents t.lane.switches
           (if other.isSome then modAt s.lane.conflictCaps c fun _ => some (ConflictCap.mk s.course.settings.conflictCap
             (s.now + s.course.settings.conflictHold.setWidth 32)) else s.lane.conflictCaps)
           (modAt s.lane.busyCaps c fun _ => none) (modAt s.lane.pitHolds c fun _ => none),
         ports :=
           (let told := missed.foldl (fun u w =>
              u.offerWithRaceControl s.geo.switches[w].owner (.missed w c n)) s
            let warned := other.elim told fun o => told.offerRaceControl (.conflict c z o)
            let jumped := if s.course.course = .countdown then
              warned.offerRaceControl (.jump c n s.course.lampCount stamp) else warned
            jumped.ports) })

/-- R65, R70, R75, R77, R78, R93: a move takes a car from its zone's list to the tail of the new one with its stall deadline;
a placement by a crossing also sets the last sensor and stamp; an undo is made while the record shows the grant; a grant
moves the car, opens the claim, sets the actuation deadline, queues the THROW, consumes the intent but at a PIT_EXIT, and
is announced. -/
def Obligations.MovesAndGrants : Prop :=
  ∀ (c : CarId) (z : ZoneId) (stamp : Time) (way : Way) (n : SensorId) (w : SwitchId) (cl : Claim) (s : State),
    s.occupancyOk →
    (let t := s.moveCar c z stamp way
     t = { s with tracker := t.tracker } ∧
     t.tracker.cars[c] = CarRecord.mk (some (Placed.mk z stamp way false)) s.tracker.cars[c].lastSensor
       s.tracker.cars[c].lastStamp
       (if s.geo.zones[z].stallTime = 0 then none else some (stamp + s.geo.zones[z].stallTime.setWidth 32)) ∧
     (∀ k : CarId, k ≠ c → t.tracker.cars[k] = s.tracker.cars[k]) ∧
     t.tracker.lists[z] = s.tracker.lists[z].filter (·.car ≠ c) ++ [Occupant.mk c stamp way] ∧
     ∀ y : ZoneId, y ≠ z → t.tracker.lists[y] = s.tracker.lists[y].filter (·.car ≠ c)) ∧
    (let t := s.moveCar c z stamp .sensor
     s.placeCrossing n z c stamp =
       t.putCar c { t.tracker.cars[c] with lastSensor := some n, lastStamp := stamp }) ∧
    (let shows := ∃ pl : Placed, s.tracker.cars[cl.car].placed = some pl ∧
       pl.zone = s.geo.switches[w].targetZone ∧ pl.way = .switch ∧ pl.entryStamp = cl.grantStamp
     (shows → s.undoGrant w cl = s.moveCar cl.car cl.priorZone cl.priorStamp .sensor) ∧
     (¬ shows → s.undoGrant w cl = s)) ∧
    ∀ pl : Placed, s.tracker.cars[c].placed = some pl →
      (let sw := s.geo.switches[w]
       let moved := s.moveCar c sw.targetZone s.now .switch
       let claimed := moved.putSwitch w { s.switch w with
         mode := .pending (s.now + sw.actuationTime.setWidth 32) (Claim.mk c s.now pl.zone pl.entryStamp .opened) }
       let settled := if sw.kind = .pitExit then claimed else claimed.putIntent c none
       s.grant c w = (settled.offerTo sw.owner (.throwSwitch w c)).tellDecision w c .grant)

/-- R71, R86, R87, R88, R89, R108: the decision at a CROSSOVER or PIT_ENTRY, on the state that the placed crossing has handed
on (PlacedCrossingIsHandedOn says what that is): no decision without a matching intent, with a BUSY cap at a switch in
motion; else the denial of the first check that fails, with a BUSY cap for BUSY, or the grant. -/
def Obligations.EntryDecisionFollowsTheChecks : Prop :=
  ∀ (p : PortId) (n : SensorId) (c : CarId) (age : Byte) (z : ZoneId) (w : SwitchId) (s : State),
    s.placesCrossing p n c (s.now - age.setWidth 32) → s.geo.sensors[n].kind = .entry z w →
    s.geo.switches[w].kind ≠ .pitExit →
    (let cmd := Instr.reportCrossing p (BitVec.ofNat 8 n.val) (BitVec.ofNat 8 (c.val + 1)) age
     let u := s.afterCrossing n z c (s.now - age.setWidth 32)
     let capped := u.putBusyCap c (some (BusyCap.mk s.course.settings.busyCap w))
     let asked := if s.geo.switches[w].kind = .pitEntry then LaneCode.pit
       else if s.geo.switches[w].direction = .inward then .shiftIn else .shiftOut
     let holds := (s.lane.intents[c]).map (·.code) = some asked
     (¬ holds → (s.switch w).mode.runState ∈ [RunState.pending, .set, .restoring] →
       exec cmd s = .next (capped.answer p (.done [0]))) ∧
     (¬ holds → (s.switch w).mode.runState ∉ [RunState.pending, .set, .restoring] →
       exec cmd s = .next (u.answer p (.done [0]))) ∧
     (holds → (∀ r ∈ laneOrder, ¬ u.fails c w r) → exec cmd s = .next ((u.grant c w).answer p (.done [0]))) ∧
     ∀ r : DecisionReason, holds → u.firstFails c w laneOrder r →
       (r ≠ .busy → exec cmd s = .next ((u.tellDecision w c (.deny r)).answer p (.done [0]))) ∧
       (r = .busy → exec cmd s = .next ((capped.tellDecision w c (.deny .busy)).answer p (.done [0]))))

/-- R71, R90, R91, R92: the decision at a PIT_EXIT, on the state that the placed crossing has handed on
(PlacedCrossingIsHandedOn says what that is): HOLD WAIT behind held cars, else a hold with the first failing check of R90
and the recheck 20 ms from now, or the grant. -/
def Obligations.PitExitHoldsOrGrants : Prop :=
  ∀ (p : PortId) (n : SensorId) (c : CarId) (age : Byte) (z : ZoneId) (w : SwitchId) (s : State),
    s.placesCrossing p n c (s.now - age.setWidth 32) → s.geo.sensors[n].kind = .entry z w →
    s.geo.switches[w].kind = .pitExit →
    (let cmd := Instr.reportCrossing p (BitVec.ofNat 8 n.val) (BitVec.ofNat 8 (c.val + 1)) age
     let u := s.afterCrossing n z c (s.now - age.setWidth 32)
     let held := fun (r : DecisionReason) (recheck : Option Time) =>
       (((u.putSwitch w { u.switch w with holds := (u.switch w).holds ++ [Hold.mk c r], recheck := recheck }).putPitHold c
         (some w)).tellDecision w c (.hold r)).answer p (.done [0])
     ((u.switch w).holds ≠ [] → exec cmd s = .next (held .wait (u.switch w).recheck)) ∧
     ((u.switch w).holds = [] → (∀ r ∈ exitOrder, ¬ u.fails c w r) →
       exec cmd s = .next ((u.grant c w).answer p (.done [0]))) ∧
     ∀ r : DecisionReason, (u.switch w).holds = [] → u.firstFails c w exitOrder r →
       exec cmd s = .next (held r (some (s.now + 20))))

/-- R91, R92: a recheck judges the head alone, at a PIT_EXIT: granted, it leaves the list and its cap; held for a new reason,
its entry takes the reason with a notice; for the same, nothing but the recheck time moves, by 20 ms from the time before
while the list is not empty. -/
def Obligations.PitExitRecheckJudgesTheHead : Prop :=
  ∀ (w : SwitchId) (head : Hold) (rest : List Hold) (d : Time) (s : State), s.holdsOk →
    s.geo.switches[w].kind = .pitExit → (s.switch w).holds = head :: rest → (s.switch w).recheck = some d →
    (s.now - d).toNat < 2 ^ 31 →
    (let c := head.car
     ((∀ r ∈ exitOrder, ¬ s.fails c w r) → exec (.pitExitRecheck w) s =
       .next (((s.putSwitch w { s.switch w with
         holds := rest, recheck := if rest = [] then none else some (d + 20) }).putPitHold c none).grant c w)) ∧
     (s.firstFails c w exitOrder head.reason → exec (.pitExitRecheck w) s =
       .next (s.putSwitch w { s.switch w with recheck := some (d + 20) })) ∧
     ∀ r : DecisionReason, r ≠ head.reason → s.firstFails c w exitOrder r → exec (.pitExitRecheck w) s =
       .next ((s.putSwitch w { s.switch w with
         holds := Hold.mk c r :: rest, recheck := some (d + 20) }).tellDecision w c (.hold r)))

/-- R75, R84, R107: a TRACKED car whose stall deadline is reached becomes STALLED with its alert; an intent and a CONFLICT cap
end at their times, without a notice. -/
def Obligations.TimedEventsOfACar : Prop :=
  ∀ (c : CarId) (s : State),
    (∀ (pl : Placed) (d : Time), s.tracker.cars[c].placed = some pl → pl.stalled = false →
      s.tracker.cars[c].stallDeadline = some d → (s.now - d).toNat < 2 ^ 31 →
      exec (.stall c) s = .next ((s.putCar c { s.tracker.cars[c] with
        placed := some { pl with stalled := true }, stallDeadline := none }).offerRaceControl
          (.stall c pl.zone s.geo.zones[pl.zone].stallTime))) ∧
    (∀ i : Intent, s.lane.intents[c] = some i → (s.now - i.expiry).toNat < 2 ^ 31 →
      exec (.intentExpiry c) s = .next (s.putIntent c none)) ∧
    ∀ cap : ConflictCap, s.lane.conflictCaps[c] = some cap → (s.now - cap.ends).toNat < 2 ^ 31 →
      exec (.conflictCapEnd c) s = .next (s.putConflictCap c none)

/-! ## Switches -/

/-- R98, R99, R100, R101: the tests of a switch report in order; an unknown kind and a JAMMED report without a position are
refused RANGE, and a THROWN or RETURNED report that its run state does not take is refused STATE. -/
def Obligations.SwitchReportsAreTestedInOrder : Prop :=
  ∀ (p : PortId) (number kind position : Byte) (s : State), s.takes p →
    (∀ cmd ∈ [Instr.reportSwitchThrown p number position, .reportSwitchReturned p number position,
        .reportSwitchJammed p number position, .reportSwitchUnknownKind p number kind position],
      (s.geo.phase = .layout → exec cmd s = .next (s.answer p (.refused .phase))) ∧
      (s.geo.phase = .run → (∀ w : SwitchId, number = BitVec.ofNat 8 w.val → s.geo.switches[w].defined = false) →
        exec cmd s = .next (s.answer p (.refused (.range 1)))) ∧
      ∀ w : SwitchId, s.geo.phase = .run → number = BitVec.ofNat 8 w.val → s.geo.switches[w].defined = true →
        s.geo.switches[w].owner ≠ p → exec cmd s = .next (s.answer p (.refused .notOwner))) ∧
    ∀ w : SwitchId, s.takesReport p w number →
      (2 < kind.toNat →
        exec (.reportSwitchUnknownKind p number kind position) s = .next (s.answer p (.refused (.range 2)))) ∧
      (2 < position.toNat →
        exec (.reportSwitchJammed p number position) s = .next (s.answer p (.refused (.range 3)))) ∧
      ((s.switch w).mode.runState ≠ .pending →
        exec (.reportSwitchThrown p number position) s = .next (s.answer p (.refused .state))) ∧
      ((s.switch w).mode.runState ∈ [RunState.ready, .faulted, .disabled] →
        exec (.reportSwitchReturned p number position) s = .next (s.answer p (.refused .state)))

/-- R85, R97, R99, R100, R108: THROWN in PENDING makes the switch SET; RETURNED in PENDING, SET and RESTORING makes it READY
and NORMAL and ends its BUSY caps, with the undo and ABORTED in PENDING, the outcome as recorded in SET, no claim notice
in RESTORING. -/
def Obligations.ThrownAndReturnedMoveTheSwitch : Prop :=
  ∀ (p : PortId) (number position : Byte) (w : SwitchId) (s : State), s.takesReport p w number →
    (let rested := s.restSwitch w .ready .normal
     (∀ c : CarId, rested.lane.busyCaps[c] =
       if (s.lane.busyCaps[c]).any (·.switch == w) then none else s.lane.busyCaps[c]) ∧
     rested = { s with lane := { s.lane with
       switches := modAt s.lane.switches w fun st => { st with mode := .ready, position := .normal },
       busyCaps := rested.lane.busyCaps } } ∧
     (∀ (d : Time) (cl : Claim), (s.switch w).mode = .pending d cl →
       exec (.reportSwitchThrown p number position) s = .next ((s.putSwitch w { s.switch w with
         mode := .set (s.now + s.geo.switches[w].holdLimit.setWidth 32) cl, position := .thrown }).answer p (.done [])) ∧
       exec (.reportSwitchReturned p number position) s =
         .next (((rested.undoGrant w cl).tellClosed w cl .aborted).answer p (.done []))) ∧
     (∀ (d : Time) (cl : Claim), (s.switch w).mode = .set d cl →
       exec (.reportSwitchReturned p number position) s =
         .next ((rested.tellClosed w cl (.recorded cl.outcome)).answer p (.done []))) ∧
     ∀ d : Time, (s.switch w).mode = .restoring d →
       exec (.reportSwitchReturned p number position) s = .next (rested.answer p (.done [])))

/-- R97, R101, R105, R122: JAMMED makes a switch FAULTED in every run state with the position it carries, closes a claim
(with the undo in PENDING), and raises the alert; a fault report, of a position not NORMAL, calls CAUTION when
auto-caution is ON and the course GREEN, and else changes nothing. -/
def Obligations.JammedFaultsTheSwitch : Prop :=
  ∀ (p : PortId) (number position : Byte) (ps : Position) (w : SwitchId) (s : State), s.takesReport p w number →
    (position = 0 ∧ ps = .normal ∨ position = 1 ∧ ps = .thrown ∨ position = 2 ∧ ps = .unknown) →
    (let cmd := Instr.reportSwitchJammed p number position
     let rested := s.restSwitch w .faulted ps
     let left := (s.switch w).mode.runState
     (∀ (d : Time) (cl : Claim), (s.switch w).mode = .pending d cl → exec cmd s =
       .next ((((rested.undoGrant w cl).tellClosed w cl .aborted).tellFault w .jammed left ps).answer p (.done []))) ∧
     (∀ (d : Time) (cl : Claim), (s.switch w).mode = .set d cl → exec cmd s =
       .next (((rested.tellClosed w cl (.recorded cl.outcome)).tellFault w .jammed left ps).answer p (.done []))) ∧
     ((s.switch w).mode.claim = none →
       exec cmd s = .next ((rested.tellFault w .jammed left ps).answer p (.done []))) ∧
     (s.course.settings.autoCaution = true → s.course.course = .green →
       s.faultReport w = (s.putCourse .caution s.course.lampCount s.course.nextLamp).offerAll
         (.course .caution .green s.course.lampCount (.auto w))) ∧
     ((s.course.settings.autoCaution = false ∨ s.course.course ≠ .green) → s.faultReport w = s))

/-- R102, R103, R104, R105: a PENDING switch whose deadline is reached faults UNKNOWN and closes its claim LAPSED after the
undo; a SET one queues its RESTORE and becomes RESTORING, or faults THROWN when the queue is full; a RESTORING one faults
THROWN. CLAIM_CLOSED stands before the alert (log 13). -/
def Obligations.SwitchDeadlinesEndThePassage : Prop :=
  ∀ (w : SwitchId) (d : Time) (cl : Claim) (s : State), (s.now - d).toNat < 2 ^ 31 →
    (let sw := s.geo.switches[w]
     ((s.switch w).mode = .pending d cl → exec (.actuationDeadline w) s =
       .next ((((s.restSwitch w .faulted .unknown).undoGrant w cl).tellClosed w cl .lapsed).tellFault w .actuation
         .pending .unknown)) ∧
     ((s.switch w).mode = .set d cl → (s.ports[sw.owner]).queue.length < 32 → exec (.holdDeadline w) s =
       .next (((s.offerTo sw.owner (.restoreSwitch w)).putSwitch w { s.switch w with
         mode := .restoring (s.now + sw.actuationTime.setWidth 32) }).tellClosed w cl (.recorded cl.outcome))) ∧
     ((s.switch w).mode = .set d cl → 32 ≤ (s.ports[sw.owner]).queue.length → exec (.holdDeadline w) s =
       .next (((s.restSwitch w .faulted .thrown).tellClosed w cl (.recorded cl.outcome)).tellFault w .restoreQueue
         .set .thrown)) ∧
     ((s.switch w).mode = .restoring d → exec (.restoringActuationDeadline w) s =
       .next ((s.restSwitch w .faulted .thrown).tellFault w .actuation .restoring .thrown)))

/-- R109, R125, Table 5-7: SWITCH DISABLE, ENABLE and CLEAR: RANGE for a switch that is not defined, STATE in a run state
that does not take the request, and else the new run state with its reply and its SWITCH_STATE notice. -/
def Obligations.SwitchRequestsMoveTheRunState : Prop :=
  ∀ (p : PortId) (number : Byte) (s : State), s.takes p → (s.ports[p]).raceControl = true →
    ∀ row ∈ [(Instr.switchDisable p number, SwitchRequest.disable, RunState.ready, SwitchMode.disabled, (5 : Byte)),
        (.switchEnable p number, .enable, .disabled, .ready, 0), (.switchClear p number, .clear, .faulted, .ready, 0)],
      ((∀ w : SwitchId, number = BitVec.ofNat 8 w.val → s.geo.switches[w].defined = false) →
        exec row.1 s = .next (s.answer p (.refused (.range 1)))) ∧
      ∀ w : SwitchId, number = BitVec.ofNat 8 w.val → s.geo.switches[w].defined = true →
        ((s.switch w).mode.runState ≠ row.2.2.1 → exec row.1 s = .next (s.answer p (.refused .state))) ∧
        ((s.switch w).mode.runState = row.2.2.1 →
          (let ps := if row.2.1 = .clear then Position.normal else (s.switch w).position
           exec row.1 s = .next (((s.restSwitch w row.2.2.2.1 ps).offerWithRaceControl s.geo.switches[w].owner
             (.switchState w row.2.1 row.2.2.2.1.runState ps)).answer p (.done [row.2.2.2.2, ps.byte]))))

/-! ## Course -/

/-- R115, R116, R117, R118, R119: START with its tests, STOP in every course, CAUTION and GREEN by Table 6-3, and the lamp
steps, 1000 ms from the lamp time before, to GREEN at 0. -/
def Obligations.CourseMovesByTheTables : Prop :=
  ∀ (p : PortId) (s : State),
    (let refuse := fun r => Host.Outcome.next (s.answer p (.refused r))
     let same := Host.Outcome.next (s.answer p (.done []))
     let move := fun new lamps next => Host.Outcome.next
       (((s.putCourse new lamps next).offerAll (.course new s.course.course lamps (.request p))).answer p (.done []))
     s.takes p → (s.ports[p]).raceControl = true →
     (s.geo.phase = .layout → exec (.start p) s = refuse .phase) ∧
     (s.geo.phase = .run → s.course.course ≠ .stop → exec (.start p) s = refuse .state) ∧
     (s.geo.phase = .run → s.course.course = .stop →
       exec (.start p) s = move .countdown 5 (some (s.now + 1000))) ∧
     (s.course.course = .stop → exec (.stop p) s = same) ∧
     (s.course.course ≠ .stop → exec (.stop p) s = move .stop 0 none) ∧
     (s.course.course = .stop ∨ s.course.course = .countdown →
       exec (.caution p) s = refuse .state ∧ exec (.green p) s = refuse .state) ∧
     (s.course.course = .green →
       exec (.caution p) s = move .caution s.course.lampCount s.course.nextLamp ∧ exec (.green p) s = same) ∧
     (s.course.course = .caution →
       exec (.caution p) s = same ∧ exec (.green p) s = move .green s.course.lampCount s.course.nextLamp)) ∧
    ∀ d : Time, s.course.course = .countdown → s.course.nextLamp = some d → (s.now - d).toNat < 2 ^ 31 →
      (2 ≤ s.course.lampCount → exec .lampExpiry s =
        .next (s.putCourse .countdown (s.course.lampCount - 1) (some (d + 1000)))) ∧
      (s.course.lampCount = 1 → exec .lampExpiry s =
        .next ((s.putCourse .green 0 none).offerAll (.course .green .countdown 0 .countdownEnd)))

/-- R123, R124: PIT OPEN, PIT CLOSE and ZONE LOCK set the flag or the lock with a notice when it changes; a zone above 63 or a
lock byte above 1 is refused RANGE with the place of an offending value (which of two, log 10). -/
def Obligations.PitAndZoneLocksAreSet : Prop :=
  ∀ (p : PortId) (zone lock : Byte) (s : State), s.takes p → (s.ports[p]).raceControl = true →
    (∀ row ∈ [(Instr.pitOpen p, true), (.pitClose p, false)],
      (s.course.pitOpen = row.2 → exec row.1 s = .next (s.answer p (.done []))) ∧
      (s.course.pitOpen ≠ row.2 → exec row.1 s =
        .next ((({ s with course := { s.course with pitOpen := row.2 } }).offerAll (.pit row.2)).answer p (.done [])))) ∧
    (∀ z : ZoneId, zone = BitVec.ofNat 8 z.val → lock.toNat ≤ 1 →
      (s.course.locks[z] = (lock == 1) → exec (.zoneLock p zone lock) s = .next (s.answer p (.done []))) ∧
      (s.course.locks[z] ≠ (lock == 1) → exec (.zoneLock p zone lock) s =
        .next ((({ s with course := { s.course with locks := modAt s.course.locks z fun _ => lock == 1 } }).offerRaceControl
          (.zoneLock z (lock == 1))).answer p (.done [])))) ∧
    (63 < zone.toNat ∨ 1 < lock.toNat →
      ∃ (k : Byte) (free : Nat), (k = 1 ∧ 63 < zone.toNat ∨ k = 2 ∧ 1 < lock.toNat) ∧
        exec (.zoneLock p zone lock) s = .next (({ s with freeCount := free }).answer p (.refused (.range k))))

/-- R79, R110, R126: TRACK CLEAR is refused STATE out of STOP; in STOP it empties positions, lists, intents, caps and holds,
sends each switch with a claim, in ascending order, to RESTORING if its RESTORE finds room in its owner's queue at its turn
and else to FAULTED, and then tells their numbers to every port. The order of CLAIM_CLOSED and SWITCH_FAULT is log 13. -/
def Obligations.TrackClearEmptiesTheTrack : Prop :=
  ∀ (p : PortId) (s : State), s.takes p → (s.ports[p]).raceControl = true →
    (s.course.course ≠ .stop → exec (.trackClear p) s = .next (s.answer p (.refused .state))) ∧
    (s.course.course = .stop → ∃ t : State, exec (.trackClear p) s = .next t ∧
      (∀ c : CarId, t.tracker.cars[c] = { s.tracker.cars[c] with placed := none, stallDeadline := none } ∧
        t.lane.intents[c] = none ∧ t.lane.conflictCaps[c] = none ∧ t.lane.busyCaps[c] = none ∧
        t.lane.pitHolds[c] = none) ∧
      (∀ z : ZoneId, t.tracker.lists[z] = []) ∧
      (∀ w : SwitchId, (t.switch w).holds = [] ∧ (t.switch w).recheck = none ∧
        ((s.switch w).mode.claim = none →
          (t.switch w).mode = (s.switch w).mode ∧ (t.switch w).position = (s.switch w).position) ∧
        ((s.switch w).mode.claim ≠ none →
          (let told := ((List.finRange 32).take w.val).foldl s.tellCleared s
           let full := 32 ≤ (told.ports[s.geo.switches[w].owner]).queue.length
           (¬ full → (t.switch w).mode = .restoring (s.now + s.geo.switches[w].actuationTime.setWidth 32) ∧
             (t.switch w).position = (s.switch w).position) ∧
           (full → (t.switch w).mode = .faulted ∧ (t.switch w).position = .thrown)))) ∧
      (let sent := fun r => (List.finRange 32).countP fun w =>
         (s.switch w).mode.claim.isSome && (t.switch w).mode.runState == r
       let told := (List.finRange 32).foldl s.tellCleared s
       t = { s with
         tracker := t.tracker, lane := t.lane,
         ports := ((told.offerAll (.trackClear (sent .restoring) (sent .faulted))).answer p (.done [])).ports }))

/-! ## Layout -/

/-- R12 to R17, R80, R110: LAYOUT RUN is refused PHASE in RUN, refused LAYOUT_FAULT with the lowest failing switch, or else the
lowest failing sensor, and with every check passed makes every switch READY and NORMAL and the phase RUN, with its
notice. LAYOUT EDIT is refused PHASE in LAYOUT, STATE out of STOP or with a switch in motion; else it makes every position
UNKNOWN and forgets the last sensors, empties lists, intents, caps, holds and offers, makes every switch READY and NORMAL,
and the phase LAYOUT, with its notice. -/
def Obligations.LayoutRunAndEditChangeThePhase : Prop :=
  ∀ (p : PortId) (s : State), s.takes p → (s.ports[p]).raceControl = true →
    (s.geo.phase = .run → exec (.layoutRun p) s = .next (s.answer p (.refused .phase))) ∧
    (s.geo.phase = .layout →
      (∀ w : SwitchId, s.geo.switches[w].defined = true → ¬ s.geo.switchSound w →
        (∀ k : SwitchId, k < w → s.geo.switches[k].defined = true → s.geo.switchSound k) →
        exec (.layoutRun p) s = .next (s.answer p (.refused (.layoutFault 1 (BitVec.ofNat 8 w.val))))) ∧
      ((∀ w : SwitchId, s.geo.switches[w].defined = true → s.geo.switchSound w) →
        (∀ n : SensorId, s.geo.sensors[n].defined = true → ¬ s.geo.sensorSound n →
          (∀ k : SensorId, k < n → s.geo.sensors[k].defined = true → s.geo.sensorSound k) →
          exec (.layoutRun p) s = .next (s.answer p (.refused (.layoutFault 2 (BitVec.ofNat 8 n.val))))) ∧
        ((∀ n : SensorId, s.geo.sensors[n].defined = true → s.geo.sensorSound n) →
          exec (.layoutRun p) s = .next ((({ s with
            geo := { s.geo with phase := .run },
            lane := { s.lane with switches := mapAll s.lane.switches fun _ st =>
              { st with mode := .ready, position := .normal } } }).offerAll (.layout .run)).answer p (.done []))))) ∧
    (let moving := ∃ w : SwitchId, (s.switch w).mode.runState ∈ [RunState.pending, .set, .restoring]
     (s.geo.phase = .layout → exec (.layoutEdit p) s = .next (s.answer p (.refused .phase))) ∧
     (s.geo.phase = .run → (s.course.course ≠ .stop ∨ moving) →
       exec (.layoutEdit p) s = .next (s.answer p (.refused .state))) ∧
     (s.geo.phase = .run → s.course.course = .stop → ¬ moving →
       ∃ t : State, exec (.layoutEdit p) s = .next t ∧
         (∀ c : CarId, t.tracker.cars[c] = CarRecord.mk none none 0 none ∧ t.lane.intents[c] = none ∧
           t.lane.conflictCaps[c] = none ∧ t.lane.busyCaps[c] = none ∧ t.lane.pitHolds[c] = none) ∧
         (∀ z : ZoneId, t.tracker.lists[z] = []) ∧
         (∀ w : SwitchId, t.switch w = SwitchState.mk .ready .normal [] none) ∧
         t = { s with
           geo := { s.geo with phase := .layout }, binding := { s.binding with offers := [] },
           tracker := t.tracker, lane := t.lane,
           ports := ((s.offerAll (.layout .layout)).answer p (.done [])).ports }))

/-! ## Bind store -/

/-- R142, R143, R144, R145, R146: STORE SAVE with its tests in order starts a commit of its row; the writer's choice starts an
AUTO commit of the lowest row it may commit, with the writer IDLE, auto-save ON and the start-up over, and else nothing.
The row that a commit has begun with carries a check that agrees with no content, and is INVALID. That "track time 4 or
later" is read as the start-up being over is log 6; the check's algorithm and the codes of a permit are log 17. -/
def Obligations.CommitsStartBySaveOrChoice : Prop :=
  ∀ (p : PortId) (n : Byte) (r : RowId) (s : State),
    (s.takes p → (s.ports[p]).raceControl = true →
      (¬ (1 ≤ n.toNat ∧ n.toNat ≤ 20) → exec (.storeSave p n) s = .next (s.answer p (.refused (.range 1)))) ∧
      (n = BitVec.ofNat 8 (r.val + 1) →
        (16 ≤ r.val → s.store.stwe = false → exec (.storeSave p n) s = .next (s.answer p (.refused .storeProtected))) ∧
        (r.val < 16 ∨ s.store.stwe = true →
          (s.store.writer ≠ .idle → exec (.storeSave p n) s = .next (s.answer p (.refused .storeBusy))) ∧
          (s.store.writer = .idle → ∃ x : Commit, s.snapshotOf r (.save p) x ∧
            exec (.storeSave p n) s = .next ((s.begun r x).answer p (.done [])))))) ∧
    (let ready := s.store.writer = .idle ∧ s.course.settings.autoSave = true ∧ s.seq.starting = false
     (ready → s.mayCommit r → (∀ k : RowId, k < r → ¬ s.mayCommit k) → ∃ x : Commit, s.snapshotOf r .auto x ∧
       exec .writerCommitStart s = .next (s.begun r x)) ∧
     ((¬ ready ∨ ∀ k : RowId, ¬ s.mayCommit k) → exec .writerCommitStart s = .next s)) ∧
    ∀ x : Commit, (s.begun r x).validRow r = none ∧
      ∀ content : StoreContent, rowCheck (s.begun r x).store.rows[r] ≠ contentCheck content

/-- R142, R144, R145, R146: a commit in INVALIDATING goes to WRITING for 3 ms; in WRITING it completes, with the row VALID
with the snapshot's content under an agreeing check (whose algorithm is free, log 17; the content in range), the mark CLEAN if the revision has not moved, and STORE_DONE for a SAVE; a fall of STWE cuts the commit of a marshal row and leaves
that of a car row; a rise sets the level. The end of a step counts from the end before (log 23); a cut leaves the mark
DIRTY, whatever it was (log 25). -/
def Obligations.CommitsRunAndAreCut : Prop :=
  ∀ (x : Commit) (s : State),
    (s.store.writer = .invalidating x → (s.now - x.stepEnd).toNat < 2 ^ 31 → exec .writerStepEnd s =
      .next (s.putWriter (.writing { x with stepEnd := x.stepEnd + 3 }))) ∧
    (s.store.writer = .writing x → (s.now - x.stepEnd).toNat < 2 ^ 31 →
      (let done := (s.putRow x.row (rowOf x.content)).putWriter .idle
       (done.store.rows[x.row].content = some x.content ∧ rowCheck done.store.rows[x.row] = contentCheck x.content ∧
         (contentOk x.row x.content → done.validRow x.row = some x.content)) ∧
       (s.unmoved x → exec .commitCompletion s =
         .next (({ done with binding := s.marked x.row .clean }).tellStored x .clean)) ∧
       (¬ s.unmoved x → exec .commitCompletion s = .next (done.tellStored x .dirty)))) ∧
    (let low := { s with store := { s.store with stwe := false } }
     s.store.stwe = true →
     (s.store.writer = .idle → exec .stweFall s = .next low) ∧
     ((s.store.writer = .invalidating x ∨ s.store.writer = .writing x) →
       (x.row.val < 16 → exec .stweFall s = .next low) ∧
       (16 ≤ x.row.val → exec .stweFall s =
         .next (({ low.putWriter .idle with binding := s.marked x.row .dirty }).tellStored x .cut)))) ∧
    exec .stweRise s = .next { s with store := { s.store with stwe := true } }

/-! ## The rail -/

/-- R131, R132, R133, R134, R136: in the quiet window a frame begins when it is due, with the next frame number and the sync
of that number; in the sync the broadcast word begins, with the frame number, the course, the lamps and the pit flag and
its check; in car 16's word the quiet window begins, and holds RDO low and WIN high, each from its own millisecond on. The
word counter counts the words begun. That each part is a command, due in the part before it, and what the word counter
reads where R133 does not say, is log 16. -/
def Obligations.RailFrameIsSentInParts : Prop :=
  ∀ s : State,
    (let b := s.seq.bitCounter.val
     let part := fun (position : Fin 200) (bits : List Bool) (win : Bool) =>
       { s with seq := { s.seq with bitCounter := position, rdo := bits, win := win } }
     (s.seq.running = true → 184 ≤ b → (s.now - s.seq.nextFrame).toNat < 2 ^ 31 →
       ∃ t : State, exec .railFrameStart s = .next t ∧
       t.seq.frameCounter.val = (s.seq.frameCounter.val + 1) % 8 ∧
       (t.seq.frameCounter = 0 → t.seq.rdo =
         [false, false, false, false, true, true, false, false, true, false, true, false]) ∧
       (t.seq.frameCounter ≠ 0 → t.seq.rdo =
         [true, true, true, true, false, false, true, true, false, true, false, true]) ∧
       t = { s with seq := { s.seq with
         frameCounter := t.seq.frameCounter, nextFrame := s.seq.nextFrame + 5, bitCounter := 0, rdo := t.seq.rdo,
         win := false } }) ∧
     (let fields := bitsOf (BitVec.ofNat 3 s.seq.frameCounter.val) ++
        bitsOf (BitVec.ofNat 2 (match s.course.course with
          | .stop => 0 | .countdown => 1 | .green => 2 | .caution => 3)) ++
        bitsOf (BitVec.ofNat 3 s.course.lampCount) ++ [s.course.pitOpen]
      (s.lampsAndOffersOk → fields.count true ≤ 7) ∧
      (s.seq.running = true → b < 12 → s.reachesBit 12 → exec .broadcastWord s =
        .next (part 12 (fields ++ bitsOf (BitVec.ofNat 3 (fields.count true))) false))) ∧
     (s.seq.running = true → 174 ≤ b → b < 184 → s.reachesBit 184 →
       exec .quietWindow s = .next (part 184 [] true) ∧ (part 184 [] true).seq.rdoLevel = false) ∧
     (b < 12 → s.seq.wordCounter = 0 ∧ s.seq.rdoLevel = s.seq.rdo.getD b false) ∧
     (12 ≤ b → b < 24 → s.seq.wordCounter = 1 ∧ s.seq.rdoLevel = s.seq.rdo.getD (b - 12) false) ∧
     (∀ c : CarId, 24 + 10 * c.val ≤ b → b < 34 + 10 * c.val →
       s.seq.wordCounter = 2 + c.val ∧ s.seq.rdoLevel = s.seq.rdo.getD (b - (24 + 10 * c.val)) false) ∧
     (184 ≤ b → s.seq.wordCounter = 17 ∧ (s.seq.rdo = [] → s.seq.rdoLevel = false)))

/-- R131, R137, R138, R139, R168: the word of a car, begun in the part before its slot (car order, R131; log 16), from its own
millisecond on: braked, coasting or at its running speed by Table 7-3, the running speed the least of its bounds, the lamp
while it holds an intent, and the two parity bits. A BOUND car whose record is LOST or absent, which no run reaches
(EveryStepKeepsTheIdentities), is not spoken of (log 19). -/
def Obligations.CarWordFollowsTheTable : Prop :=
  ∀ (c : CarId) (s : State), s.seq.running = true →
    (c = 0 ∧ 12 ≤ s.seq.bitCounter.val ∧ s.seq.bitCounter.val < 24 ∨
      c ≠ 0 ∧ 14 + 10 * c.val ≤ s.seq.bitCounter.val ∧ s.seq.bitCounter.val < 24 + 10 * c.val) →
    s.reachesBit (24 + 10 * c.val) → ∃ (speed : BitVec 6) (brake q1 q2 : Bool) (position : Fin 200),
    position.val = 24 + 10 * c.val ∧
    exec (.carWord c) s = .next { s with seq := { s.seq with
      bitCounter := position, win := false,
      rdo := [speed.getLsbD 5, speed.getLsbD 4, speed.getLsbD 3, speed.getLsbD 2, speed.getLsbD 1, speed.getLsbD 0,
        brake, (s.lane.intents[c]).isSome, q1, q2] } } ∧
    (List.count true [speed.getLsbD 5, speed.getLsbD 4, speed.getLsbD 3, speed.getLsbD 2, speed.getLsbD 1,
      speed.getLsbD 0, q1]) % 2 = 0 ∧
    (List.count true [brake, (s.lane.intents[c]).isSome, q2]) % 2 = 0 ∧
    (s.course.course = .stop ∨ s.course.course = .countdown ∨
      (∀ a : Held, s.binding.bindings[c].held = some a → a.state ≠ .bound) → speed = 0 ∧ brake = true) ∧
    ∀ (a : Held) (h : HandsetId) (r : Handset), s.identitiesOk → s.course.course = .green ∨ s.course.course = .caution →
      s.binding.bindings[c].held = some a → a.state = .bound → s.handsets.records[h] = some r →
      r.identity = a.identity →
      (r.link = .acquiring ∨ r.link = .stale → speed = 0 ∧ brake = false) ∧
      (r.link = .live → s.speedBound c r.throttle speed ∧ (∀ v : BitVec 6, s.speedBound c r.throttle v → speed ≤ v) ∧
        (brake = true ↔ speed = 0))

/-! ## Invariants of every step -/

/-- Every step keeps the ports as the links leave them: queues of at most 32, levels 1..32, counts 0..255, and a
discarded transaction only while SELn is low, with nothing to shift out (R152). -/
def Obligations.EveryStepKeepsThePorts : Prop :=
  ∀ s t : State, s.portsWf → step s = .next t → t.portsWf

/-- Every step keeps the position records and the occupancy lists in step (R65). -/
def Obligations.EveryStepKeepsTheOccupancy : Prop :=
  ∀ s t : State, s.occupancyOk → step s = .next t → t.occupancyOk

/-- Every step keeps the identities unique and mirrored (R19, R20, R45), and a record in use for every BOUND and SUSPENDED car,
for a BOUND car one that is not LOST (R44). -/
def Obligations.EveryStepKeepsTheIdentities : Prop :=
  ∀ s t : State, s.identitiesOk → step s = .next t → t.identitiesOk

/-- Every step keeps hold lists, PIT_HOLD caps and recheck times in step (R90, R91, R92). -/
def Obligations.EveryStepKeepsTheHolds : Prop :=
  ∀ s t : State, s.holdsOk → step s = .next t → t.holdsOk

/-- Every step keeps the lamps and the offers (R49, R115), keeps LAYOUT quiet (R11), and keeps WIN and the part on RDO in step
with the bit counter (R131, R133, R134). -/
def Obligations.EveryStepKeepsCourseAndLayout : Prop :=
  ∀ s t : State, step s = .next t →
    (s.lampsAndOffersOk → t.lampsAndOffersOk) ∧ (s.layoutQuiet → t.layoutQuiet) ∧ (s.frameOk → t.frameOk)

/-- The state right after a hard reset, as delivered, meets every invariant, and every row is VALID: car rows EMPTY with ceiling
63 and permit ALLOWED (code 0, log 17), marshal rows EMPTY (R142). -/
def Obligations.ResetMeetsTheInvariants : Prop :=
  State.reset.portsWf ∧ State.reset.occupancyOk ∧ State.reset.identitiesOk ∧ State.reset.holdsOk ∧
    State.reset.lampsAndOffersOk ∧ State.reset.layoutQuiet ∧ State.reset.frameOk ∧
    (∀ c : CarId, State.reset.validRow (rowOfCar c) = some (.car none 63 0)) ∧
    ∀ m : MarshalId, State.reset.validRow (rowOfMarshal m) = some (.marshal none)
end

