-- ==== Sys2Proof/Laws/Banks.lean ====
section
/-! SUPPORT. What the small operations do: banks of records, searches, modular times and numbers in a byte. -/

namespace Sys2Proof.Machine

/-! ## Banks, read at a Fin and, for simp, at a number -/

theorem modAt_getElem {α : Type} {n : Nat} (v : Vector α n) (i : Fin n) (f : α → α) (k : Nat) (h : k < n) :
    (modAt v i f)[k] = if k = i.val then f v[k] else v[k] := by
  unfold modAt
  rw [Vector.getElem_set]
  by_cases e : k = i.val
  · subst e; simp
  · simp [e, Ne.symm e]

theorem modAt_get {α : Type} {n : Nat} (v : Vector α n) (i j : Fin n) (f : α → α) :
    (modAt v i f)[j] = if j = i then f v[j] else v[j] := by
  have := modAt_getElem v i f j.val j.isLt
  simp only [Fin.ext_iff]; exact this

@[simp] theorem modAt_getElem_self {α : Type} {n : Nat} (v : Vector α n) (i : Fin n) (f : α → α) :
    (modAt v i f)[i.val] = f v[i.val] := by simp [modAt_getElem]

theorem modAt_get_self {α : Type} {n : Nat} (v : Vector α n) (i : Fin n) (f : α → α) :
    (modAt v i f)[i] = f v[i] := modAt_getElem_self v i f

theorem modAt_get_ne {α : Type} {n : Nat} (v : Vector α n) {i j : Fin n} (f : α → α) (h : j ≠ i) :
    (modAt v i f)[j] = v[j] := by rw [modAt_get, if_neg h]

@[simp] theorem mapAll_getElem {α β : Type} {n : Nat} (v : Vector α n) (f : Fin n → α → β) (k : Nat) (h : k < n) :
    (mapAll v f)[k] = f ⟨k, h⟩ v[k] := by simp [mapAll]

theorem mapAll_get {α β : Type} {n : Nat} (v : Vector α n) (f : Fin n → α → β) (j : Fin n) :
    (mapAll v f)[j] = f j v[j] := mapAll_getElem v f j.val j.isLt

/-- Two banks are equal when they agree at every index. -/
theorem bank_ext {α : Type} {n : Nat} {u v : Vector α n} (h : ∀ i : Fin n, u[i] = v[i]) : u = v :=
  Vector.ext fun i hi => h ⟨i, hi⟩

theorem modAt_eq_mapAll {α : Type} {n : Nat} (v : Vector α n) (i : Fin n) (f : α → α) :
    modAt v i f = mapAll v fun j a => if j = i then f a else a :=
  bank_ext fun j => by rw [modAt_get, mapAll_get]

@[simp] theorem modAt_modAt {α : Type} {n : Nat} (v : Vector α n) (i : Fin n) (f g : α → α) :
    modAt (modAt v i f) i g = modAt v i fun a => g (f a) :=
  bank_ext fun j => by simp only [modAt_get]; split <;> rfl

theorem modAt_comm {α : Type} {n : Nat} (v : Vector α n) {i j : Fin n} (f g : α → α) (h : i ≠ j) :
    modAt (modAt v i f) j g = modAt (modAt v j g) i f :=
  bank_ext fun k => by
    simp only [modAt_get]
    by_cases hi : k = i
    · subst hi; simp [h]
    · simp [hi]

theorem modAt_congr {α : Type} {n : Nat} (v : Vector α n) (i : Fin n) {f g : α → α} (h : f v[i] = g v[i]) :
    modAt v i f = modAt v i g := by unfold modAt; rw [h]

/-- Rewriting a record by itself leaves the bank. -/
theorem modAt_eq_self {α : Type} {n : Nat} (v : Vector α n) (i : Fin n) {f : α → α} (h : f v[i] = v[i]) :
    modAt v i f = v :=
  bank_ext fun j => by
    rw [modAt_get]
    by_cases e : j = i
    · subst e; rw [if_pos rfl, h]
    · rw [if_neg e]

/-! ## Searches -/

theorem find?_finRange_some {n : Nat} {p : Fin n → Bool} {i : Fin n} :
    (List.finRange n).find? p = some i ↔ p i = true ∧ ∀ j : Fin n, j < i → p j = false := by
  rw [List.find?_eq_some_iff_append]
  constructor
  · rintro ⟨hp, as, bs, heq, hno⟩
    refine ⟨hp, fun j hj => ?_⟩
    have hlen : as.length = i.val := by
      have h1 : (List.finRange n)[as.length]? = some i := by rw [heq]; simp
      have h2 : as.length < (List.finRange n).length := by
        have := congrArg List.length heq; simp at this ⊢; omega
      rw [List.getElem?_eq_getElem h2] at h1
      simp at h1; exact congrArg Fin.val h1
    have hj' : j ∈ as := by
      have h3 : (List.finRange n)[j.val]? = some j := by
        rw [List.getElem?_eq_getElem (by simp)]; simp
      rw [heq, List.getElem?_append_left (by omega)] at h3
      exact List.mem_of_getElem? h3
    simpa using hno j hj'
  · rintro ⟨hp, hno⟩
    refine ⟨hp, (List.finRange n).take i.val, (List.finRange n).drop (i.val + 1), ?_, fun j hj => ?_⟩
    · conv_lhs => rw [← List.take_append_drop i.val (List.finRange n)]
      rw [List.drop_eq_getElem_cons (by simp)]
      simp
    · obtain ⟨k, hk, rfl⟩ := List.mem_iff_getElem.1 hj
      simp at hk ⊢
      exact hno _ (by simpa [Fin.lt_def] using hk)

theorem firstIdx_eq_some {n : Nat} {p : Fin n → Bool} {i : Fin n} :
    firstIdx n p = some i ↔ p i = true ∧ ∀ j : Fin n, j < i → p j = false := find?_finRange_some

theorem firstIdx_eq_none {n : Nat} {p : Fin n → Bool} : firstIdx n p = none ↔ ∀ i : Fin n, p i = false := by
  simp [firstIdx, List.find?_eq_none]

/-- The index that alone meets the test is the one found. -/
theorem firstIdx_unique {n : Nat} {p : Fin n → Bool} {i : Fin n} (h : p i = true) (hu : ∀ j : Fin n, p j = true → j = i) :
    firstIdx n p = some i :=
  firstIdx_eq_some.2 ⟨h, fun j hj => by
    by_contra hp
    exact absurd (hu j (by simpa using hp)) (Fin.ne_of_lt hj)⟩

/-! ## Times -/

theorem reached_iff {now d : Time} : reached now d = true ↔ (now - d).toNat < 2 ^ 31 := by simp [reached]

theorem dueAt_iff {now : Time} {d : Option Time} : dueAt now d = true ↔ ∃ t : Time, d = some t ∧ reached now t = true := by
  cases d <;> simp [dueAt]

theorem within100_iff {a b : Time} : within100 a b = true ↔ (a - b).toNat < 100 ∨ (b - a).toNat < 100 := by
  simp [within100]

theorem earlier_iff {a b : Time} : earlier a b = true ↔ (a - b).toInt < 0 := by
  simp [earlier, BitVec.msb_eq_toInt]

theorem addMs_toNat (t : Time) (x : BitVec 16) : addMs t x.toNat = t + x.setWidth 32 := by
  have hx := x.isLt
  simp only [addMs]
  congr 1
  apply BitVec.eq_of_toNat_eq
  rw [BitVec.toNat_ofNat, BitVec.toNat_setWidth]

theorem satInc_le (n : Nat) : satInc n ≤ 255 := by simp [satInc]

/-! ## Numbers in a byte -/

theorem finOf_eq_some {n : Nat} {b : Byte} {i : Fin n} : finOf n b = some i ↔ b.toNat = i.val := by
  unfold finOf
  split
  · simp [Fin.ext_iff]
  · simp; intro h; have := i.isLt; omega

theorem finOf_eq_none {n : Nat} {b : Byte} : finOf n b = none ↔ n ≤ b.toNat := by
  unfold finOf; split <;> simp <;> omega

theorem numOf_eq_some {n : Nat} {b : Byte} {i : Fin n} : numOf n b = some i ↔ b.toNat = i.val + 1 := by
  unfold numOf
  split
  · rename_i h; simp [Fin.ext_iff]; omega
  · rename_i h; have := i.isLt; simp at h ⊢; omega

theorem numOf_eq_none {n : Nat} {b : Byte} : numOf n b = none ↔ ¬ (1 ≤ b.toNat ∧ b.toNat ≤ n) := by
  unfold numOf; split <;> simp <;> omega

/-- The byte of an index names that index. -/
theorem finOf_idxByte {n : Nat} (h : n ≤ 256) (i : Fin n) : finOf n (idxByte i) = some i := by
  have := i.isLt
  rw [finOf_eq_some]; simp [idxByte, natByte]; omega

/-- The byte of a number counted from 1 names its index. -/
theorem numOf_numByte {n : Nat} (h : n ≤ 255) (i : Fin n) : numOf n (numByte i) = some i := by
  have := i.isLt
  rw [numOf_eq_some]; simp [numByte, natByte]; omega

end Sys2Proof.Machine
end

