-- ==== Sys2Proof/Laws/State.lean ====
section
/-! SUPPORT. What each update of State does to each of its fields: one theorem per update, true by rfl, split by simp into
one rewriting per field. An update's own field is given where it is one record of that block; the others are untouched. -/

namespace Sys2Proof.Machine

@[simp] theorem State.modPort_fields (s : State) (p : PortId) (f : Port → Port) :
    (s.modPort p f).seq = s.seq ∧ (s.modPort p f).geo = s.geo ∧ (s.modPort p f).handsets = s.handsets ∧
    (s.modPort p f).binding = s.binding ∧ (s.modPort p f).tracker = s.tracker ∧ (s.modPort p f).lane = s.lane ∧
    (s.modPort p f).course = s.course ∧ (s.modPort p f).store = s.store ∧ (s.modPort p f).ports = modAt s.ports p f ∧
    (s.modPort p f).rcs = s.rcs ∧ (s.modPort p f).freeCount = s.freeCount ∧ (s.modPort p f).pending = s.pending :=
  by
  unfold State.modPort
  exact ⟨rfl, rfl, rfl, rfl, rfl, rfl, rfl, rfl, rfl, rfl, rfl, rfl⟩

@[simp] theorem State.reply_fields (s : State) (p : PortId) (r : Reply) :
    (s.reply p r).seq = s.seq ∧ (s.reply p r).geo = s.geo ∧ (s.reply p r).handsets = s.handsets ∧
    (s.reply p r).binding = s.binding ∧ (s.reply p r).tracker = s.tracker ∧ (s.reply p r).lane = s.lane ∧
    (s.reply p r).course = s.course ∧ (s.reply p r).store = s.store ∧
    (s.reply p r).ports = (modAt s.ports p fun pt => { pt with reply := r }) ∧ (s.reply p r).rcs = s.rcs ∧
    (s.reply p r).freeCount = s.freeCount ∧ (s.reply p r).pending = s.pending :=
  by
  unfold State.reply State.modPort
  exact ⟨rfl, rfl, rfl, rfl, rfl, rfl, rfl, rfl, rfl, rfl, rfl, rfl⟩

@[simp] theorem State.refuse_fields (s : State) (p : PortId) (r : Reason) :
    (s.refuse p r).seq = s.seq ∧ (s.refuse p r).geo = s.geo ∧ (s.refuse p r).handsets = s.handsets ∧
    (s.refuse p r).binding = s.binding ∧ (s.refuse p r).tracker = s.tracker ∧ (s.refuse p r).lane = s.lane ∧
    (s.refuse p r).course = s.course ∧ (s.refuse p r).store = s.store ∧
    (s.refuse p r).ports = (modAt s.ports p fun pt => { pt with reply := .refused r }) ∧ (s.refuse p r).rcs = s.rcs ∧
    (s.refuse p r).freeCount = s.freeCount ∧ (s.refuse p r).pending = s.pending :=
  by
  unfold State.refuse State.reply State.modPort
  exact ⟨rfl, rfl, rfl, rfl, rfl, rfl, rfl, rfl, rfl, rfl, rfl, rfl⟩

@[simp] theorem State.done_fields (s : State) (p : PortId) (l : List Byte) :
    (s.done p l).seq = s.seq ∧ (s.done p l).geo = s.geo ∧ (s.done p l).handsets = s.handsets ∧
    (s.done p l).binding = s.binding ∧ (s.done p l).tracker = s.tracker ∧ (s.done p l).lane = s.lane ∧
    (s.done p l).course = s.course ∧ (s.done p l).store = s.store ∧
    (s.done p l).ports = (modAt s.ports p fun pt => { pt with reply := .done l }) ∧ (s.done p l).rcs = s.rcs ∧
    (s.done p l).freeCount = s.freeCount ∧ (s.done p l).pending = s.pending :=
  by
  unfold State.done State.reply State.modPort
  exact ⟨rfl, rfl, rfl, rfl, rfl, rfl, rfl, rfl, rfl, rfl, rfl, rfl⟩

@[simp] theorem State.endTransaction_fields (s : State) (p : PortId) :
    (s.endTransaction p).seq = s.seq ∧ (s.endTransaction p).geo = s.geo ∧ (s.endTransaction p).handsets = s.handsets ∧
    (s.endTransaction p).binding = s.binding ∧ (s.endTransaction p).tracker = s.tracker ∧
    (s.endTransaction p).lane = s.lane ∧ (s.endTransaction p).course = s.course ∧
    (s.endTransaction p).store = s.store ∧
    (s.endTransaction p).ports = (modAt s.ports p fun pt => { pt with selLow := false, shiftFrame := [] }) ∧
    (s.endTransaction p).rcs = s.rcs ∧ (s.endTransaction p).freeCount = s.freeCount ∧
    (s.endTransaction p).pending = s.pending :=
  by
  unfold State.endTransaction State.modPort
  exact ⟨rfl, rfl, rfl, rfl, rfl, rfl, rfl, rfl, rfl, rfl, rfl, rfl⟩

@[simp] theorem State.setCheckError_fields (s : State) (p : PortId) (b : Bool) :
    (s.setCheckError p b).seq = s.seq ∧ (s.setCheckError p b).geo = s.geo ∧
    (s.setCheckError p b).handsets = s.handsets ∧ (s.setCheckError p b).binding = s.binding ∧
    (s.setCheckError p b).tracker = s.tracker ∧ (s.setCheckError p b).lane = s.lane ∧
    (s.setCheckError p b).course = s.course ∧ (s.setCheckError p b).store = s.store ∧
    (s.setCheckError p b).ports = (modAt s.ports p fun pt => { pt with checkError := b }) ∧
    (s.setCheckError p b).rcs = s.rcs ∧ (s.setCheckError p b).freeCount = s.freeCount ∧
    (s.setCheckError p b).pending = s.pending :=
  by
  unfold State.setCheckError State.modPort
  exact ⟨rfl, rfl, rfl, rfl, rfl, rfl, rfl, rfl, rfl, rfl, rfl, rfl⟩

@[simp] theorem State.setStaging_fields (s : State) (p : PortId) (x : Option Staging) :
    (s.setStaging p x).seq = s.seq ∧ (s.setStaging p x).geo = s.geo ∧ (s.setStaging p x).handsets = s.handsets ∧
    (s.setStaging p x).binding = s.binding ∧ (s.setStaging p x).tracker = s.tracker ∧
    (s.setStaging p x).lane = s.lane ∧ (s.setStaging p x).course = s.course ∧ (s.setStaging p x).store = s.store ∧
    (s.setStaging p x).ports = (modAt s.ports p fun pt => { pt with staging := x }) ∧ (s.setStaging p x).rcs = s.rcs ∧
    (s.setStaging p x).freeCount = s.freeCount ∧ (s.setStaging p x).pending = s.pending :=
  by
  unfold State.setStaging State.modPort
  exact ⟨rfl, rfl, rfl, rfl, rfl, rfl, rfl, rfl, rfl, rfl, rfl, rfl⟩

@[simp] theorem State.offerWhere_fields (s : State) (d : PortId → Bool) (b : NoticeBody) :
    (s.offerWhere d b).seq = s.seq ∧ (s.offerWhere d b).geo = s.geo ∧ (s.offerWhere d b).handsets = s.handsets ∧
    (s.offerWhere d b).binding = s.binding ∧ (s.offerWhere d b).tracker = s.tracker ∧
    (s.offerWhere d b).lane = s.lane ∧ (s.offerWhere d b).course = s.course ∧ (s.offerWhere d b).store = s.store ∧
    (s.offerWhere d b).ports = (mapAll s.ports fun p pt => if d p then pt.offer ⟨b, s.now.setWidth 16⟩ else pt) ∧
    (s.offerWhere d b).rcs = s.rcs ∧ (s.offerWhere d b).freeCount = s.freeCount ∧
    (s.offerWhere d b).pending = s.pending :=
  by
  unfold State.offerWhere
  exact ⟨rfl, rfl, rfl, rfl, rfl, rfl, rfl, rfl, rfl, rfl, rfl, rfl⟩

@[simp] theorem State.offerTo_fields (s : State) (p : PortId) (b : NoticeBody) :
    (s.offerTo p b).seq = s.seq ∧ (s.offerTo p b).geo = s.geo ∧ (s.offerTo p b).handsets = s.handsets ∧
    (s.offerTo p b).binding = s.binding ∧ (s.offerTo p b).tracker = s.tracker ∧ (s.offerTo p b).lane = s.lane ∧
    (s.offerTo p b).course = s.course ∧ (s.offerTo p b).store = s.store ∧
    (s.offerTo p b).ports = (s.offerWhere (· == p) b).ports ∧ (s.offerTo p b).rcs = s.rcs ∧
    (s.offerTo p b).freeCount = s.freeCount ∧ (s.offerTo p b).pending = s.pending :=
  by
  unfold State.offerTo State.offerWhere
  exact ⟨rfl, rfl, rfl, rfl, rfl, rfl, rfl, rfl, rfl, rfl, rfl, rfl⟩

@[simp] theorem State.offerAll_fields (s : State) (b : NoticeBody) :
    (s.offerAll b).seq = s.seq ∧ (s.offerAll b).geo = s.geo ∧ (s.offerAll b).handsets = s.handsets ∧
    (s.offerAll b).binding = s.binding ∧ (s.offerAll b).tracker = s.tracker ∧ (s.offerAll b).lane = s.lane ∧
    (s.offerAll b).course = s.course ∧ (s.offerAll b).store = s.store ∧
    (s.offerAll b).ports = ((s.offerWhere (fun _ => true) b).ports) ∧ (s.offerAll b).rcs = s.rcs ∧
    (s.offerAll b).freeCount = s.freeCount ∧ (s.offerAll b).pending = s.pending :=
  by
  unfold State.offerAll State.offerWhere
  exact ⟨rfl, rfl, rfl, rfl, rfl, rfl, rfl, rfl, rfl, rfl, rfl, rfl⟩

@[simp] theorem State.offerRaceControl_fields (s : State) (b : NoticeBody) :
    (s.offerRaceControl b).seq = s.seq ∧ (s.offerRaceControl b).geo = s.geo ∧
    (s.offerRaceControl b).handsets = s.handsets ∧ (s.offerRaceControl b).binding = s.binding ∧
    (s.offerRaceControl b).tracker = s.tracker ∧ (s.offerRaceControl b).lane = s.lane ∧
    (s.offerRaceControl b).course = s.course ∧ (s.offerRaceControl b).store = s.store ∧
    (s.offerRaceControl b).ports = (s.offerWhere s.hasRights b).ports ∧ (s.offerRaceControl b).rcs = s.rcs ∧
    (s.offerRaceControl b).freeCount = s.freeCount ∧ (s.offerRaceControl b).pending = s.pending :=
  by
  unfold State.offerRaceControl State.offerWhere
  exact ⟨rfl, rfl, rfl, rfl, rfl, rfl, rfl, rfl, rfl, rfl, rfl, rfl⟩

@[simp] theorem State.offerWithRaceControl_fields (s : State) (p : PortId) (b : NoticeBody) :
    (s.offerWithRaceControl p b).seq = s.seq ∧ (s.offerWithRaceControl p b).geo = s.geo ∧
    (s.offerWithRaceControl p b).handsets = s.handsets ∧ (s.offerWithRaceControl p b).binding = s.binding ∧
    (s.offerWithRaceControl p b).tracker = s.tracker ∧ (s.offerWithRaceControl p b).lane = s.lane ∧
    (s.offerWithRaceControl p b).course = s.course ∧ (s.offerWithRaceControl p b).store = s.store ∧
    (s.offerWithRaceControl p b).ports = ((s.offerWhere (fun q => q == p || s.hasRights q) b).ports) ∧
    (s.offerWithRaceControl p b).rcs = s.rcs ∧ (s.offerWithRaceControl p b).freeCount = s.freeCount ∧
    (s.offerWithRaceControl p b).pending = s.pending :=
  by
  unfold State.offerWithRaceControl State.offerWhere
  exact ⟨rfl, rfl, rfl, rfl, rfl, rfl, rfl, rfl, rfl, rfl, rfl, rfl⟩

@[simp] theorem State.changeCourse_fields (s : State) (new : Course) (lamps : Nat) (next : Option Time) (cause : CourseCause) :
    (s.changeCourse new lamps next cause).seq = s.seq ∧ (s.changeCourse new lamps next cause).geo = s.geo ∧
    (s.changeCourse new lamps next cause).handsets = s.handsets ∧
    (s.changeCourse new lamps next cause).binding = s.binding ∧
    (s.changeCourse new lamps next cause).tracker = s.tracker ∧ (s.changeCourse new lamps next cause).lane = s.lane ∧
    (s.changeCourse new lamps next cause).course =
      { s.course with course := new, lampCount := lamps, nextLamp := next } ∧
    (s.changeCourse new lamps next cause).store = s.store ∧
    (s.changeCourse new lamps next cause).ports = (s.offerAll (.course new s.course.course lamps cause)).ports ∧
    (s.changeCourse new lamps next cause).rcs = s.rcs ∧
    (s.changeCourse new lamps next cause).freeCount = s.freeCount ∧
    (s.changeCourse new lamps next cause).pending = s.pending :=
  by
  unfold State.changeCourse State.offerAll State.offerWhere
  exact ⟨rfl, rfl, rfl, rfl, rfl, rfl, rfl, rfl, rfl, rfl, rfl, rfl⟩

@[simp] theorem State.modHandset_fields (s : State) (h : HandsetId) (f : Handset → Handset) :
    (s.modHandset h f).seq = s.seq ∧ (s.modHandset h f).geo = s.geo ∧
    (s.modHandset h f).handsets = { s.handsets with records := modAt s.handsets.records h (Option.map f) } ∧
    (s.modHandset h f).binding = s.binding ∧ (s.modHandset h f).tracker = s.tracker ∧
    (s.modHandset h f).lane = s.lane ∧ (s.modHandset h f).course = s.course ∧ (s.modHandset h f).store = s.store ∧
    (s.modHandset h f).ports = s.ports ∧ (s.modHandset h f).rcs = s.rcs ∧ (s.modHandset h f).freeCount = s.freeCount ∧
    (s.modHandset h f).pending = s.pending :=
  by
  unfold State.modHandset
  exact ⟨rfl, rfl, rfl, rfl, rfl, rfl, rfl, rfl, rfl, rfl, rfl, rfl⟩

@[simp] theorem State.freeHandset_fields (s : State) (h : HandsetId) :
    (s.freeHandset h).seq = s.seq ∧ (s.freeHandset h).geo = s.geo ∧
    (s.freeHandset h).handsets = (HandsetTable.mk (modAt s.handsets.records h fun _ => none) .armed) ∧
    (s.freeHandset h).binding = s.binding ∧ (s.freeHandset h).tracker = s.tracker ∧ (s.freeHandset h).lane = s.lane ∧
    (s.freeHandset h).course = s.course ∧ (s.freeHandset h).store = s.store ∧ (s.freeHandset h).ports = s.ports ∧
    (s.freeHandset h).rcs = s.rcs ∧ (s.freeHandset h).freeCount = s.freeCount ∧ (s.freeHandset h).pending = s.pending :=
  by
  unfold State.freeHandset
  exact ⟨rfl, rfl, rfl, rfl, rfl, rfl, rfl, rfl, rfl, rfl, rfl, rfl⟩

@[simp] theorem State.clearIntent_fields (s : State) (c : CarId) :
    (s.clearIntent c).seq = s.seq ∧ (s.clearIntent c).geo = s.geo ∧ (s.clearIntent c).handsets = s.handsets ∧
    (s.clearIntent c).binding = s.binding ∧ (s.clearIntent c).tracker = s.tracker ∧
    (s.clearIntent c).lane = ({ s.lane with intents := modAt s.lane.intents c fun _ => none }) ∧
    (s.clearIntent c).course = s.course ∧ (s.clearIntent c).store = s.store ∧ (s.clearIntent c).ports = s.ports ∧
    (s.clearIntent c).rcs = s.rcs ∧ (s.clearIntent c).freeCount = s.freeCount ∧ (s.clearIntent c).pending = s.pending :=
  by
  unfold State.clearIntent
  exact ⟨rfl, rfl, rfl, rfl, rfl, rfl, rfl, rfl, rfl, rfl, rfl, rfl⟩

@[simp] theorem State.changeBinding_fields (s : State) (c : CarId) (f : Binding → Binding) :
    (s.changeBinding c f).seq = s.seq ∧ (s.changeBinding c f).geo = s.geo ∧
    (s.changeBinding c f).handsets = s.handsets ∧
    (s.changeBinding c f).binding =
      ({ s.binding with bindings := modAt s.binding.bindings c fun b => { f b with revision := b.revision + 1, mark := .dirty } }) ∧
    (s.changeBinding c f).tracker = s.tracker ∧ (s.changeBinding c f).lane = s.lane ∧
    (s.changeBinding c f).course = s.course ∧ (s.changeBinding c f).store = s.store ∧
    (s.changeBinding c f).rcs = s.rcs ∧ (s.changeBinding c f).freeCount = s.freeCount ∧
    (s.changeBinding c f).pending = s.pending :=
  by
  unfold State.changeBinding State.offerRaceControl State.offerWhere
  exact ⟨rfl, rfl, rfl, rfl, rfl, rfl, rfl, rfl, rfl, rfl, rfl⟩

@[simp] theorem State.moveCar_fields (s : State) (c : CarId) (z : ZoneId) (t : Time) (way : Way) :
    (s.moveCar c z t way).seq = s.seq ∧ (s.moveCar c z t way).geo = s.geo ∧
    (s.moveCar c z t way).handsets = s.handsets ∧ (s.moveCar c z t way).binding = s.binding ∧
    (s.moveCar c z t way).lane = s.lane ∧ (s.moveCar c z t way).course = s.course ∧
    (s.moveCar c z t way).store = s.store ∧ (s.moveCar c z t way).ports = s.ports ∧
    (s.moveCar c z t way).rcs = s.rcs ∧ (s.moveCar c z t way).freeCount = s.freeCount ∧
    (s.moveCar c z t way).pending = s.pending :=
  by
  unfold State.moveCar
  exact ⟨rfl, rfl, rfl, rfl, rfl, rfl, rfl, rfl, rfl, rfl, rfl⟩

@[simp] theorem State.placeCrossing_fields (s : State) (n : SensorId) (z : ZoneId) (c : CarId) (t : Time) :
    (s.placeCrossing n z c t).seq = s.seq ∧ (s.placeCrossing n z c t).geo = s.geo ∧
    (s.placeCrossing n z c t).handsets = s.handsets ∧ (s.placeCrossing n z c t).binding = s.binding ∧
    (s.placeCrossing n z c t).lane = s.lane ∧ (s.placeCrossing n z c t).course = s.course ∧
    (s.placeCrossing n z c t).store = s.store ∧ (s.placeCrossing n z c t).ports = s.ports ∧
    (s.placeCrossing n z c t).rcs = s.rcs ∧ (s.placeCrossing n z c t).freeCount = s.freeCount ∧
    (s.placeCrossing n z c t).pending = s.pending :=
  by
  unfold State.placeCrossing State.moveCar
  exact ⟨rfl, rfl, rfl, rfl, rfl, rfl, rfl, rfl, rfl, rfl, rfl⟩

@[simp] theorem State.modSwitch_fields (s : State) (w : SwitchId) (f : SwitchState → SwitchState) :
    (s.modSwitch w f).seq = s.seq ∧ (s.modSwitch w f).geo = s.geo ∧ (s.modSwitch w f).handsets = s.handsets ∧
    (s.modSwitch w f).binding = s.binding ∧ (s.modSwitch w f).tracker = s.tracker ∧
    (s.modSwitch w f).lane = { s.lane with switches := modAt s.lane.switches w f } ∧
    (s.modSwitch w f).course = s.course ∧ (s.modSwitch w f).store = s.store ∧ (s.modSwitch w f).ports = s.ports ∧
    (s.modSwitch w f).rcs = s.rcs ∧ (s.modSwitch w f).freeCount = s.freeCount ∧ (s.modSwitch w f).pending = s.pending :=
  by
  unfold State.modSwitch
  exact ⟨rfl, rfl, rfl, rfl, rfl, rfl, rfl, rfl, rfl, rfl, rfl, rfl⟩

@[simp] theorem State.setSwitch_fields (s : State) (w : SwitchId) (m : SwitchMode) (ps : Position) :
    (s.setSwitch w m ps).seq = s.seq ∧ (s.setSwitch w m ps).geo = s.geo ∧ (s.setSwitch w m ps).handsets = s.handsets ∧
    (s.setSwitch w m ps).binding = s.binding ∧ (s.setSwitch w m ps).tracker = s.tracker ∧
    (s.setSwitch w m ps).lane =
      ({ s.lane with switches := modAt s.lane.switches w fun st => { st with mode := m, position := ps } }) ∧
    (s.setSwitch w m ps).course = s.course ∧ (s.setSwitch w m ps).store = s.store ∧
    (s.setSwitch w m ps).ports = s.ports ∧ (s.setSwitch w m ps).rcs = s.rcs ∧
    (s.setSwitch w m ps).freeCount = s.freeCount ∧ (s.setSwitch w m ps).pending = s.pending :=
  by
  unfold State.setSwitch State.modSwitch
  exact ⟨rfl, rfl, rfl, rfl, rfl, rfl, rfl, rfl, rfl, rfl, rfl, rfl⟩

@[simp] theorem State.endBusyCaps_fields (s : State) (w : SwitchId) :
    (s.endBusyCaps w).seq = s.seq ∧ (s.endBusyCaps w).geo = s.geo ∧ (s.endBusyCaps w).handsets = s.handsets ∧
    (s.endBusyCaps w).binding = s.binding ∧ (s.endBusyCaps w).tracker = s.tracker ∧
    (s.endBusyCaps w).lane =
      ({ s.lane with busyCaps := mapAll s.lane.busyCaps fun _ cap => if cap.any (·.switch == w) then none else cap }) ∧
    (s.endBusyCaps w).course = s.course ∧ (s.endBusyCaps w).store = s.store ∧ (s.endBusyCaps w).ports = s.ports ∧
    (s.endBusyCaps w).rcs = s.rcs ∧ (s.endBusyCaps w).freeCount = s.freeCount ∧ (s.endBusyCaps w).pending = s.pending :=
  by
  unfold State.endBusyCaps
  exact ⟨rfl, rfl, rfl, rfl, rfl, rfl, rfl, rfl, rfl, rfl, rfl, rfl⟩

@[simp] theorem State.restSwitch_fields (s : State) (w : SwitchId) (m : SwitchMode) (ps : Position) :
    (s.restSwitch w m ps).seq = s.seq ∧ (s.restSwitch w m ps).geo = s.geo ∧
    (s.restSwitch w m ps).handsets = s.handsets ∧ (s.restSwitch w m ps).binding = s.binding ∧
    (s.restSwitch w m ps).tracker = s.tracker ∧
    (s.restSwitch w m ps).lane = ((s.setSwitch w m ps).endBusyCaps w).lane ∧ (s.restSwitch w m ps).course = s.course ∧
    (s.restSwitch w m ps).store = s.store ∧ (s.restSwitch w m ps).ports = s.ports ∧
    (s.restSwitch w m ps).rcs = s.rcs ∧ (s.restSwitch w m ps).freeCount = s.freeCount ∧
    (s.restSwitch w m ps).pending = s.pending :=
  by
  unfold State.restSwitch State.endBusyCaps State.setSwitch State.modSwitch
  exact ⟨rfl, rfl, rfl, rfl, rfl, rfl, rfl, rfl, rfl, rfl, rfl, rfl⟩

@[simp] theorem State.setBusyCap_fields (s : State) (c : CarId) (w : SwitchId) :
    (s.setBusyCap c w).seq = s.seq ∧ (s.setBusyCap c w).geo = s.geo ∧ (s.setBusyCap c w).handsets = s.handsets ∧
    (s.setBusyCap c w).binding = s.binding ∧ (s.setBusyCap c w).tracker = s.tracker ∧
    (s.setBusyCap c w).lane =
      ({ s.lane with busyCaps := modAt s.lane.busyCaps c fun _ => some (BusyCap.mk s.course.settings.busyCap w) }) ∧
    (s.setBusyCap c w).course = s.course ∧ (s.setBusyCap c w).store = s.store ∧ (s.setBusyCap c w).ports = s.ports ∧
    (s.setBusyCap c w).rcs = s.rcs ∧ (s.setBusyCap c w).freeCount = s.freeCount ∧
    (s.setBusyCap c w).pending = s.pending :=
  by
  unfold State.setBusyCap
  exact ⟨rfl, rfl, rfl, rfl, rfl, rfl, rfl, rfl, rfl, rfl, rfl, rfl⟩

@[simp] theorem State.setPitHold_fields (s : State) (c : CarId) (h : Option SwitchId) :
    (s.setPitHold c h).seq = s.seq ∧ (s.setPitHold c h).geo = s.geo ∧ (s.setPitHold c h).handsets = s.handsets ∧
    (s.setPitHold c h).binding = s.binding ∧ (s.setPitHold c h).tracker = s.tracker ∧
    (s.setPitHold c h).lane = ({ s.lane with pitHolds := modAt s.lane.pitHolds c fun _ => h }) ∧
    (s.setPitHold c h).course = s.course ∧ (s.setPitHold c h).store = s.store ∧ (s.setPitHold c h).ports = s.ports ∧
    (s.setPitHold c h).rcs = s.rcs ∧ (s.setPitHold c h).freeCount = s.freeCount ∧
    (s.setPitHold c h).pending = s.pending :=
  by
  unfold State.setPitHold
  exact ⟨rfl, rfl, rfl, rfl, rfl, rfl, rfl, rfl, rfl, rfl, rfl, rfl⟩

@[simp] theorem State.announceClosed_fields (s : State) (w : SwitchId) (cl : Claim) (o : FinalOutcome) :
    (s.announceClosed w cl o).seq = s.seq ∧ (s.announceClosed w cl o).geo = s.geo ∧
    (s.announceClosed w cl o).handsets = s.handsets ∧ (s.announceClosed w cl o).binding = s.binding ∧
    (s.announceClosed w cl o).tracker = s.tracker ∧ (s.announceClosed w cl o).lane = s.lane ∧
    (s.announceClosed w cl o).course = s.course ∧ (s.announceClosed w cl o).store = s.store ∧
    (s.announceClosed w cl o).ports =
      (s.offerWithRaceControl (s.switchOwner w) (.claimClosed w cl.car o cl.grantStamp)).ports ∧
    (s.announceClosed w cl o).rcs = s.rcs ∧ (s.announceClosed w cl o).freeCount = s.freeCount ∧
    (s.announceClosed w cl o).pending = s.pending :=
  by
  unfold State.announceClosed State.offerWithRaceControl State.offerWhere
  exact ⟨rfl, rfl, rfl, rfl, rfl, rfl, rfl, rfl, rfl, rfl, rfl, rfl⟩

@[simp] theorem State.announceDecision_fields (s : State) (w : SwitchId) (c : CarId) (d : Decision) :
    (s.announceDecision w c d).seq = s.seq ∧ (s.announceDecision w c d).geo = s.geo ∧
    (s.announceDecision w c d).handsets = s.handsets ∧ (s.announceDecision w c d).binding = s.binding ∧
    (s.announceDecision w c d).tracker = s.tracker ∧ (s.announceDecision w c d).lane = s.lane ∧
    (s.announceDecision w c d).course = s.course ∧ (s.announceDecision w c d).store = s.store ∧
    (s.announceDecision w c d).ports = (s.offerWithRaceControl (s.switchOwner w) (.decision w c d)).ports ∧
    (s.announceDecision w c d).rcs = s.rcs ∧ (s.announceDecision w c d).freeCount = s.freeCount ∧
    (s.announceDecision w c d).pending = s.pending :=
  by
  unfold State.announceDecision State.offerWithRaceControl State.offerWhere
  exact ⟨rfl, rfl, rfl, rfl, rfl, rfl, rfl, rfl, rfl, rfl, rfl, rfl⟩

@[simp] theorem State.closeSet_fields (s : State) (w : SwitchId) (cl : Claim) (m : SwitchMode) (ps : Position) :
    (s.closeSet w cl m ps).seq = s.seq ∧ (s.closeSet w cl m ps).geo = s.geo ∧
    (s.closeSet w cl m ps).handsets = s.handsets ∧ (s.closeSet w cl m ps).binding = s.binding ∧
    (s.closeSet w cl m ps).tracker = s.tracker ∧ (s.closeSet w cl m ps).lane = (s.restSwitch w m ps).lane ∧
    (s.closeSet w cl m ps).course = s.course ∧ (s.closeSet w cl m ps).store = s.store ∧
    (s.closeSet w cl m ps).ports = ((s.restSwitch w m ps).announceClosed w cl (.recorded cl.outcome)).ports ∧
    (s.closeSet w cl m ps).rcs = s.rcs ∧ (s.closeSet w cl m ps).freeCount = s.freeCount ∧
    (s.closeSet w cl m ps).pending = s.pending :=
  by
  unfold State.closeSet State.announceClosed State.offerWithRaceControl State.offerWhere State.restSwitch State.endBusyCaps State.setSwitch State.modSwitch
  exact ⟨rfl, rfl, rfl, rfl, rfl, rfl, rfl, rfl, rfl, rfl, rfl, rfl⟩

@[simp] theorem State.endHold_fields (s : State) (c : CarId) (w : SwitchId) :
    (s.endHold c w).seq = s.seq ∧ (s.endHold c w).geo = s.geo ∧ (s.endHold c w).handsets = s.handsets ∧
    (s.endHold c w).binding = s.binding ∧ (s.endHold c w).tracker = s.tracker ∧ (s.endHold c w).course = s.course ∧
    (s.endHold c w).store = s.store ∧ (s.endHold c w).ports = s.ports ∧ (s.endHold c w).rcs = s.rcs ∧
    (s.endHold c w).freeCount = s.freeCount ∧ (s.endHold c w).pending = s.pending :=
  by
  unfold State.endHold State.setPitHold State.modSwitch
  exact ⟨rfl, rfl, rfl, rfl, rfl, rfl, rfl, rfl, rfl, rfl, rfl⟩

@[simp] theorem State.holdCar_fields (s : State) (c : CarId) (w : SwitchId) (r : DecisionReason) :
    (s.holdCar c w r).seq = s.seq ∧ (s.holdCar c w r).geo = s.geo ∧ (s.holdCar c w r).handsets = s.handsets ∧
    (s.holdCar c w r).binding = s.binding ∧ (s.holdCar c w r).tracker = s.tracker ∧
    (s.holdCar c w r).course = s.course ∧ (s.holdCar c w r).store = s.store ∧ (s.holdCar c w r).rcs = s.rcs ∧
    (s.holdCar c w r).freeCount = s.freeCount ∧ (s.holdCar c w r).pending = s.pending :=
  by
  unfold State.holdCar State.announceDecision State.offerWithRaceControl State.offerWhere State.setPitHold State.modSwitch
  exact ⟨rfl, rfl, rfl, rfl, rfl, rfl, rfl, rfl, rfl, rfl⟩

@[simp] theorem State.setConflictCap_fields (s : State) (c : CarId) (z : ZoneId) (o : CarId) :
    (s.setConflictCap c z o).seq = s.seq ∧ (s.setConflictCap c z o).geo = s.geo ∧
    (s.setConflictCap c z o).handsets = s.handsets ∧ (s.setConflictCap c z o).binding = s.binding ∧
    (s.setConflictCap c z o).tracker = s.tracker ∧ (s.setConflictCap c z o).course = s.course ∧
    (s.setConflictCap c z o).store = s.store ∧ (s.setConflictCap c z o).rcs = s.rcs ∧
    (s.setConflictCap c z o).freeCount = s.freeCount ∧ (s.setConflictCap c z o).pending = s.pending :=
  by
  unfold State.setConflictCap State.offerRaceControl State.offerWhere
  exact ⟨rfl, rfl, rfl, rfl, rfl, rfl, rfl, rfl, rfl, rfl⟩

@[simp] theorem State.modOffers_fields (s : State) (f : List Offer → List Offer) :
    (s.modOffers f).seq = s.seq ∧ (s.modOffers f).geo = s.geo ∧ (s.modOffers f).handsets = s.handsets ∧
    (s.modOffers f).binding = { s.binding with offers := f s.binding.offers } ∧ (s.modOffers f).tracker = s.tracker ∧
    (s.modOffers f).lane = s.lane ∧ (s.modOffers f).course = s.course ∧ (s.modOffers f).store = s.store ∧
    (s.modOffers f).ports = s.ports ∧ (s.modOffers f).rcs = s.rcs ∧ (s.modOffers f).freeCount = s.freeCount ∧
    (s.modOffers f).pending = s.pending :=
  by
  unfold State.modOffers
  exact ⟨rfl, rfl, rfl, rfl, rfl, rfl, rfl, rfl, rfl, rfl, rfl, rfl⟩

@[simp] theorem State.closeWindow_fields (s : State) :
    (s.closeWindow).seq = s.seq ∧ (s.closeWindow).geo = s.geo ∧ (s.closeWindow).handsets = s.handsets ∧
    (s.closeWindow).binding = { s.binding with window := none, offers := [] } ∧ (s.closeWindow).tracker = s.tracker ∧
    (s.closeWindow).lane = s.lane ∧ (s.closeWindow).course = s.course ∧ (s.closeWindow).store = s.store ∧
    (s.closeWindow).ports = (s.offerAll (.pairing none)).ports ∧ (s.closeWindow).rcs = s.rcs ∧
    (s.closeWindow).freeCount = s.freeCount ∧ (s.closeWindow).pending = s.pending :=
  by
  unfold State.closeWindow State.offerAll State.offerWhere
  exact ⟨rfl, rfl, rfl, rfl, rfl, rfl, rfl, rfl, rfl, rfl, rfl, rfl⟩

@[simp] theorem State.clearPositions_fields (s : State) :
    (s.clearPositions).seq = s.seq ∧ (s.clearPositions).geo = s.geo ∧ (s.clearPositions).handsets = s.handsets ∧
    (s.clearPositions).binding = s.binding ∧ (s.clearPositions).lane = s.lane ∧ (s.clearPositions).course = s.course ∧
    (s.clearPositions).store = s.store ∧ (s.clearPositions).ports = s.ports ∧ (s.clearPositions).rcs = s.rcs ∧
    (s.clearPositions).freeCount = s.freeCount ∧ (s.clearPositions).pending = s.pending :=
  by
  unfold State.clearPositions
  exact ⟨rfl, rfl, rfl, rfl, rfl, rfl, rfl, rfl, rfl, rfl, rfl⟩

@[simp] theorem State.clearLane_fields (s : State) :
    (s.clearLane).seq = s.seq ∧ (s.clearLane).geo = s.geo ∧ (s.clearLane).handsets = s.handsets ∧
    (s.clearLane).binding = s.binding ∧ (s.clearLane).tracker = s.tracker ∧ (s.clearLane).course = s.course ∧
    (s.clearLane).store = s.store ∧ (s.clearLane).ports = s.ports ∧ (s.clearLane).rcs = s.rcs ∧
    (s.clearLane).freeCount = s.freeCount ∧ (s.clearLane).pending = s.pending :=
  by
  unfold State.clearLane
  exact ⟨rfl, rfl, rfl, rfl, rfl, rfl, rfl, rfl, rfl, rfl, rfl⟩

@[simp] theorem State.readySwitches_fields (s : State) :
    (s.readySwitches).seq = s.seq ∧ (s.readySwitches).geo = s.geo ∧ (s.readySwitches).handsets = s.handsets ∧
    (s.readySwitches).binding = s.binding ∧ (s.readySwitches).tracker = s.tracker ∧
    (s.readySwitches).lane =
      ({ s.lane with switches := mapAll s.lane.switches fun _ st => { st with mode := .ready, position := .normal } }) ∧
    (s.readySwitches).course = s.course ∧ (s.readySwitches).store = s.store ∧ (s.readySwitches).ports = s.ports ∧
    (s.readySwitches).rcs = s.rcs ∧ (s.readySwitches).freeCount = s.freeCount ∧ (s.readySwitches).pending = s.pending :=
  by
  unfold State.readySwitches
  exact ⟨rfl, rfl, rfl, rfl, rfl, rfl, rfl, rfl, rfl, rfl, rfl, rfl⟩

@[simp] theorem State.changePhase_fields (s : State) (x : Phase) :
    (s.changePhase x).seq = s.seq ∧ (s.changePhase x).geo = { s.geo with phase := x } ∧
    (s.changePhase x).handsets = s.handsets ∧ (s.changePhase x).binding = s.binding ∧
    (s.changePhase x).tracker = s.tracker ∧ (s.changePhase x).lane = s.lane ∧ (s.changePhase x).course = s.course ∧
    (s.changePhase x).store = s.store ∧ (s.changePhase x).ports = (s.offerAll (.layout x)).ports ∧
    (s.changePhase x).rcs = s.rcs ∧ (s.changePhase x).freeCount = s.freeCount ∧ (s.changePhase x).pending = s.pending :=
  by
  unfold State.changePhase State.offerAll State.offerWhere
  exact ⟨rfl, rfl, rfl, rfl, rfl, rfl, rfl, rfl, rfl, rfl, rfl, rfl⟩

@[simp] theorem State.forgetPositions_fields (s : State) :
    (s.forgetPositions).seq = s.seq ∧ (s.forgetPositions).geo = s.geo ∧ (s.forgetPositions).handsets = s.handsets ∧
    (s.forgetPositions).binding = s.binding ∧ (s.forgetPositions).lane = s.lane ∧
    (s.forgetPositions).course = s.course ∧ (s.forgetPositions).store = s.store ∧
    (s.forgetPositions).ports = s.ports ∧ (s.forgetPositions).rcs = s.rcs ∧
    (s.forgetPositions).freeCount = s.freeCount ∧ (s.forgetPositions).pending = s.pending :=
  by
  unfold State.forgetPositions State.clearPositions
  exact ⟨rfl, rfl, rfl, rfl, rfl, rfl, rfl, rfl, rfl, rfl, rfl⟩

@[simp] theorem State.setWriter_fields (s : State) (x : Writer) :
    (s.setWriter x).seq = s.seq ∧ (s.setWriter x).geo = s.geo ∧ (s.setWriter x).handsets = s.handsets ∧
    (s.setWriter x).binding = s.binding ∧ (s.setWriter x).tracker = s.tracker ∧ (s.setWriter x).lane = s.lane ∧
    (s.setWriter x).course = s.course ∧ (s.setWriter x).store = { s.store with writer := x } ∧
    (s.setWriter x).ports = s.ports ∧ (s.setWriter x).rcs = s.rcs ∧ (s.setWriter x).freeCount = s.freeCount ∧
    (s.setWriter x).pending = s.pending :=
  by
  unfold State.setWriter
  exact ⟨rfl, rfl, rfl, rfl, rfl, rfl, rfl, rfl, rfl, rfl, rfl, rfl⟩

@[simp] theorem State.setRow_fields (s : State) (r : RowId) (x : StoreRow) :
    (s.setRow r x).seq = s.seq ∧ (s.setRow r x).geo = s.geo ∧ (s.setRow r x).handsets = s.handsets ∧
    (s.setRow r x).binding = s.binding ∧ (s.setRow r x).tracker = s.tracker ∧ (s.setRow r x).lane = s.lane ∧
    (s.setRow r x).course = s.course ∧
    (s.setRow r x).store = ({ s.store with rows := modAt s.store.rows r fun _ => x }) ∧
    (s.setRow r x).ports = s.ports ∧ (s.setRow r x).rcs = s.rcs ∧ (s.setRow r x).freeCount = s.freeCount ∧
    (s.setRow r x).pending = s.pending :=
  by
  unfold State.setRow
  exact ⟨rfl, rfl, rfl, rfl, rfl, rfl, rfl, rfl, rfl, rfl, rfl, rfl⟩

@[simp] theorem State.startCommit_fields (s : State) (r : RowId) (o : Origin) :
    (s.startCommit r o).seq = s.seq ∧ (s.startCommit r o).geo = s.geo ∧ (s.startCommit r o).handsets = s.handsets ∧
    (s.startCommit r o).binding = s.binding ∧ (s.startCommit r o).tracker = s.tracker ∧
    (s.startCommit r o).lane = s.lane ∧ (s.startCommit r o).course = s.course ∧ (s.startCommit r o).ports = s.ports ∧
    (s.startCommit r o).rcs = s.rcs ∧ (s.startCommit r o).freeCount = s.freeCount ∧
    (s.startCommit r o).pending = s.pending :=
  by
  unfold State.startCommit State.setWriter State.setRow
  exact ⟨rfl, rfl, rfl, rfl, rfl, rfl, rfl, rfl, rfl, rfl, rfl⟩

@[simp] theorem State.sendPart_fields (s : State) (k : Fin 200) (l : List Bool) (b : Bool) :
    (s.sendPart k l b).seq = { s.seq with bitCounter := k, rdo := l, win := b } ∧ (s.sendPart k l b).geo = s.geo ∧
    (s.sendPart k l b).handsets = s.handsets ∧ (s.sendPart k l b).binding = s.binding ∧
    (s.sendPart k l b).tracker = s.tracker ∧ (s.sendPart k l b).lane = s.lane ∧ (s.sendPart k l b).course = s.course ∧
    (s.sendPart k l b).store = s.store ∧ (s.sendPart k l b).ports = s.ports ∧ (s.sendPart k l b).rcs = s.rcs ∧
    (s.sendPart k l b).freeCount = s.freeCount ∧ (s.sendPart k l b).pending = s.pending :=
  by
  unfold State.sendPart
  exact ⟨rfl, rfl, rfl, rfl, rfl, rfl, rfl, rfl, rfl, rfl, rfl, rfl⟩

@[simp] theorem State.beginFrame_fields (s : State) (k : Fin 8) (t : Time) :
    (s.beginFrame k t).seq =
      { s.seq with frameCounter := k, nextFrame := t, bitCounter := 0, rdo := syncBits k, win := false } ∧
    (s.beginFrame k t).geo = s.geo ∧ (s.beginFrame k t).handsets = s.handsets ∧
    (s.beginFrame k t).binding = s.binding ∧ (s.beginFrame k t).tracker = s.tracker ∧
    (s.beginFrame k t).lane = s.lane ∧ (s.beginFrame k t).course = s.course ∧ (s.beginFrame k t).store = s.store ∧
    (s.beginFrame k t).ports = s.ports ∧ (s.beginFrame k t).rcs = s.rcs ∧ (s.beginFrame k t).freeCount = s.freeCount ∧
    (s.beginFrame k t).pending = s.pending :=
  by
  unfold State.beginFrame State.sendPart
  exact ⟨rfl, rfl, rfl, rfl, rfl, rfl, rfl, rfl, rfl, rfl, rfl, rfl⟩

@[simp] theorem State.putZone_fields (s : State) (z : ZoneId) (x : Zone) :
    (s.putZone z x).seq = s.seq ∧ (s.putZone z x).geo = ({ s.geo with zones := modAt s.geo.zones z fun _ => x }) ∧
    (s.putZone z x).handsets = s.handsets ∧ (s.putZone z x).binding = s.binding ∧
    (s.putZone z x).tracker = s.tracker ∧ (s.putZone z x).lane = s.lane ∧ (s.putZone z x).course = s.course ∧
    (s.putZone z x).store = s.store ∧ (s.putZone z x).ports = s.ports ∧ (s.putZone z x).rcs = s.rcs ∧
    (s.putZone z x).freeCount = s.freeCount ∧ (s.putZone z x).pending = s.pending :=
  by
  unfold State.putZone
  exact ⟨rfl, rfl, rfl, rfl, rfl, rfl, rfl, rfl, rfl, rfl, rfl, rfl⟩

@[simp] theorem State.putSwitchRecord_fields (s : State) (w : SwitchId) (x : Switch) :
    (s.putSwitchRecord w x).seq = s.seq ∧
    (s.putSwitchRecord w x).geo = ({ s.geo with switches := modAt s.geo.switches w fun _ => x }) ∧
    (s.putSwitchRecord w x).handsets = s.handsets ∧ (s.putSwitchRecord w x).binding = s.binding ∧
    (s.putSwitchRecord w x).tracker = s.tracker ∧ (s.putSwitchRecord w x).lane = s.lane ∧
    (s.putSwitchRecord w x).course = s.course ∧ (s.putSwitchRecord w x).store = s.store ∧
    (s.putSwitchRecord w x).ports = s.ports ∧ (s.putSwitchRecord w x).rcs = s.rcs ∧
    (s.putSwitchRecord w x).freeCount = s.freeCount ∧ (s.putSwitchRecord w x).pending = s.pending :=
  by
  unfold State.putSwitchRecord
  exact ⟨rfl, rfl, rfl, rfl, rfl, rfl, rfl, rfl, rfl, rfl, rfl, rfl⟩

@[simp] theorem State.putSensor_fields (s : State) (n : SensorId) (x : Sensor) :
    (s.putSensor n x).seq = s.seq ∧
    (s.putSensor n x).geo = ({ s.geo with sensors := modAt s.geo.sensors n fun _ => x }) ∧
    (s.putSensor n x).handsets = s.handsets ∧ (s.putSensor n x).binding = s.binding ∧
    (s.putSensor n x).tracker = s.tracker ∧ (s.putSensor n x).lane = s.lane ∧ (s.putSensor n x).course = s.course ∧
    (s.putSensor n x).store = s.store ∧ (s.putSensor n x).ports = s.ports ∧ (s.putSensor n x).rcs = s.rcs ∧
    (s.putSensor n x).freeCount = s.freeCount ∧ (s.putSensor n x).pending = s.pending :=
  by
  unfold State.putSensor
  exact ⟨rfl, rfl, rfl, rfl, rfl, rfl, rfl, rfl, rfl, rfl, rfl, rfl⟩

@[simp] theorem State.putSettings_fields (s : State) (x : Settings) :
    (s.putSettings x).seq = s.seq ∧ (s.putSettings x).geo = s.geo ∧ (s.putSettings x).handsets = s.handsets ∧
    (s.putSettings x).binding = s.binding ∧ (s.putSettings x).tracker = s.tracker ∧ (s.putSettings x).lane = s.lane ∧
    (s.putSettings x).course = { s.course with settings := x } ∧ (s.putSettings x).store = s.store ∧
    (s.putSettings x).ports = s.ports ∧ (s.putSettings x).rcs = s.rcs ∧ (s.putSettings x).freeCount = s.freeCount ∧
    (s.putSettings x).pending = s.pending :=
  by
  unfold State.putSettings
  exact ⟨rfl, rfl, rfl, rfl, rfl, rfl, rfl, rfl, rfl, rfl, rfl, rfl⟩

@[simp] theorem State.putCourse_fields (s : State) (x : Course) (k : Nat) (t : Option Time) :
    (s.putCourse x k t).seq = s.seq ∧ (s.putCourse x k t).geo = s.geo ∧ (s.putCourse x k t).handsets = s.handsets ∧
    (s.putCourse x k t).binding = s.binding ∧ (s.putCourse x k t).tracker = s.tracker ∧
    (s.putCourse x k t).lane = s.lane ∧
    (s.putCourse x k t).course = { s.course with course := x, lampCount := k, nextLamp := t } ∧
    (s.putCourse x k t).store = s.store ∧ (s.putCourse x k t).ports = s.ports ∧ (s.putCourse x k t).rcs = s.rcs ∧
    (s.putCourse x k t).freeCount = s.freeCount ∧ (s.putCourse x k t).pending = s.pending :=
  by
  unfold State.putCourse
  exact ⟨rfl, rfl, rfl, rfl, rfl, rfl, rfl, rfl, rfl, rfl, rfl, rfl⟩

@[simp] theorem State.putBinding_fields (s : State) (c : CarId) (x : Binding) :
    (s.putBinding c x).seq = s.seq ∧ (s.putBinding c x).geo = s.geo ∧ (s.putBinding c x).handsets = s.handsets ∧
    (s.putBinding c x).binding = ({ s.binding with bindings := modAt s.binding.bindings c fun _ => x }) ∧
    (s.putBinding c x).tracker = s.tracker ∧ (s.putBinding c x).lane = s.lane ∧ (s.putBinding c x).course = s.course ∧
    (s.putBinding c x).store = s.store ∧ (s.putBinding c x).ports = s.ports ∧ (s.putBinding c x).rcs = s.rcs ∧
    (s.putBinding c x).freeCount = s.freeCount ∧ (s.putBinding c x).pending = s.pending :=
  by
  unfold State.putBinding
  exact ⟨rfl, rfl, rfl, rfl, rfl, rfl, rfl, rfl, rfl, rfl, rfl, rfl⟩

@[simp] theorem State.putMarshal_fields (s : State) (m : MarshalId) (x : MarshalEntry) :
    (s.putMarshal m x).seq = s.seq ∧ (s.putMarshal m x).geo = s.geo ∧ (s.putMarshal m x).handsets = s.handsets ∧
    (s.putMarshal m x).binding = ({ s.binding with marshals := modAt s.binding.marshals m fun _ => x }) ∧
    (s.putMarshal m x).tracker = s.tracker ∧ (s.putMarshal m x).lane = s.lane ∧ (s.putMarshal m x).course = s.course ∧
    (s.putMarshal m x).store = s.store ∧ (s.putMarshal m x).ports = s.ports ∧ (s.putMarshal m x).rcs = s.rcs ∧
    (s.putMarshal m x).freeCount = s.freeCount ∧ (s.putMarshal m x).pending = s.pending :=
  by
  unfold State.putMarshal
  exact ⟨rfl, rfl, rfl, rfl, rfl, rfl, rfl, rfl, rfl, rfl, rfl, rfl⟩

@[simp] theorem State.putOffers_fields (s : State) (x : List Offer) :
    (s.putOffers x).seq = s.seq ∧ (s.putOffers x).geo = s.geo ∧ (s.putOffers x).handsets = s.handsets ∧
    (s.putOffers x).binding = { s.binding with offers := x } ∧ (s.putOffers x).tracker = s.tracker ∧
    (s.putOffers x).lane = s.lane ∧ (s.putOffers x).course = s.course ∧ (s.putOffers x).store = s.store ∧
    (s.putOffers x).ports = s.ports ∧ (s.putOffers x).rcs = s.rcs ∧ (s.putOffers x).freeCount = s.freeCount ∧
    (s.putOffers x).pending = s.pending :=
  by
  unfold State.putOffers
  exact ⟨rfl, rfl, rfl, rfl, rfl, rfl, rfl, rfl, rfl, rfl, rfl, rfl⟩

@[simp] theorem State.putRecord_fields (s : State) (h : HandsetId) (x : Option Handset) :
    (s.putRecord h x).seq = s.seq ∧ (s.putRecord h x).geo = s.geo ∧
    (s.putRecord h x).handsets = ({ s.handsets with records := modAt s.handsets.records h fun _ => x }) ∧
    (s.putRecord h x).binding = s.binding ∧ (s.putRecord h x).tracker = s.tracker ∧ (s.putRecord h x).lane = s.lane ∧
    (s.putRecord h x).course = s.course ∧ (s.putRecord h x).store = s.store ∧ (s.putRecord h x).ports = s.ports ∧
    (s.putRecord h x).rcs = s.rcs ∧ (s.putRecord h x).freeCount = s.freeCount ∧ (s.putRecord h x).pending = s.pending :=
  by
  unfold State.putRecord
  exact ⟨rfl, rfl, rfl, rfl, rfl, rfl, rfl, rfl, rfl, rfl, rfl, rfl⟩

@[simp] theorem State.putCar_fields (s : State) (c : CarId) (x : CarRecord) :
    (s.putCar c x).seq = s.seq ∧ (s.putCar c x).geo = s.geo ∧ (s.putCar c x).handsets = s.handsets ∧
    (s.putCar c x).binding = s.binding ∧
    (s.putCar c x).tracker = ({ s.tracker with cars := modAt s.tracker.cars c fun _ => x }) ∧
    (s.putCar c x).lane = s.lane ∧ (s.putCar c x).course = s.course ∧ (s.putCar c x).store = s.store ∧
    (s.putCar c x).ports = s.ports ∧ (s.putCar c x).rcs = s.rcs ∧ (s.putCar c x).freeCount = s.freeCount ∧
    (s.putCar c x).pending = s.pending :=
  by
  unfold State.putCar
  exact ⟨rfl, rfl, rfl, rfl, rfl, rfl, rfl, rfl, rfl, rfl, rfl, rfl⟩

@[simp] theorem State.putIntent_fields (s : State) (c : CarId) (x : Option Intent) :
    (s.putIntent c x).seq = s.seq ∧ (s.putIntent c x).geo = s.geo ∧ (s.putIntent c x).handsets = s.handsets ∧
    (s.putIntent c x).binding = s.binding ∧ (s.putIntent c x).tracker = s.tracker ∧
    (s.putIntent c x).lane = ({ s.lane with intents := modAt s.lane.intents c fun _ => x }) ∧
    (s.putIntent c x).course = s.course ∧ (s.putIntent c x).store = s.store ∧ (s.putIntent c x).ports = s.ports ∧
    (s.putIntent c x).rcs = s.rcs ∧ (s.putIntent c x).freeCount = s.freeCount ∧ (s.putIntent c x).pending = s.pending :=
  by
  unfold State.putIntent
  exact ⟨rfl, rfl, rfl, rfl, rfl, rfl, rfl, rfl, rfl, rfl, rfl, rfl⟩

@[simp] theorem State.putSwitch_fields (s : State) (w : SwitchId) (x : SwitchState) :
    (s.putSwitch w x).seq = s.seq ∧ (s.putSwitch w x).geo = s.geo ∧ (s.putSwitch w x).handsets = s.handsets ∧
    (s.putSwitch w x).binding = s.binding ∧ (s.putSwitch w x).tracker = s.tracker ∧
    (s.putSwitch w x).lane = ({ s.lane with switches := modAt s.lane.switches w fun _ => x }) ∧
    (s.putSwitch w x).course = s.course ∧ (s.putSwitch w x).store = s.store ∧ (s.putSwitch w x).ports = s.ports ∧
    (s.putSwitch w x).rcs = s.rcs ∧ (s.putSwitch w x).freeCount = s.freeCount ∧ (s.putSwitch w x).pending = s.pending :=
  by
  unfold State.putSwitch
  exact ⟨rfl, rfl, rfl, rfl, rfl, rfl, rfl, rfl, rfl, rfl, rfl, rfl⟩

@[simp] theorem State.putConflictCap_fields (s : State) (c : CarId) (x : Option ConflictCap) :
    (s.putConflictCap c x).seq = s.seq ∧ (s.putConflictCap c x).geo = s.geo ∧
    (s.putConflictCap c x).handsets = s.handsets ∧ (s.putConflictCap c x).binding = s.binding ∧
    (s.putConflictCap c x).tracker = s.tracker ∧
    (s.putConflictCap c x).lane = ({ s.lane with conflictCaps := modAt s.lane.conflictCaps c fun _ => x }) ∧
    (s.putConflictCap c x).course = s.course ∧ (s.putConflictCap c x).store = s.store ∧
    (s.putConflictCap c x).ports = s.ports ∧ (s.putConflictCap c x).rcs = s.rcs ∧
    (s.putConflictCap c x).freeCount = s.freeCount ∧ (s.putConflictCap c x).pending = s.pending :=
  by
  unfold State.putConflictCap
  exact ⟨rfl, rfl, rfl, rfl, rfl, rfl, rfl, rfl, rfl, rfl, rfl, rfl⟩

@[simp] theorem State.putBusyCap_fields (s : State) (c : CarId) (x : Option BusyCap) :
    (s.putBusyCap c x).seq = s.seq ∧ (s.putBusyCap c x).geo = s.geo ∧ (s.putBusyCap c x).handsets = s.handsets ∧
    (s.putBusyCap c x).binding = s.binding ∧ (s.putBusyCap c x).tracker = s.tracker ∧
    (s.putBusyCap c x).lane = ({ s.lane with busyCaps := modAt s.lane.busyCaps c fun _ => x }) ∧
    (s.putBusyCap c x).course = s.course ∧ (s.putBusyCap c x).store = s.store ∧ (s.putBusyCap c x).ports = s.ports ∧
    (s.putBusyCap c x).rcs = s.rcs ∧ (s.putBusyCap c x).freeCount = s.freeCount ∧
    (s.putBusyCap c x).pending = s.pending :=
  by
  unfold State.putBusyCap
  exact ⟨rfl, rfl, rfl, rfl, rfl, rfl, rfl, rfl, rfl, rfl, rfl, rfl⟩

@[simp] theorem State.putPitHold_fields (s : State) (c : CarId) (x : Option SwitchId) :
    (s.putPitHold c x).seq = s.seq ∧ (s.putPitHold c x).geo = s.geo ∧ (s.putPitHold c x).handsets = s.handsets ∧
    (s.putPitHold c x).binding = s.binding ∧ (s.putPitHold c x).tracker = s.tracker ∧
    (s.putPitHold c x).lane = ({ s.lane with pitHolds := modAt s.lane.pitHolds c fun _ => x }) ∧
    (s.putPitHold c x).course = s.course ∧ (s.putPitHold c x).store = s.store ∧ (s.putPitHold c x).ports = s.ports ∧
    (s.putPitHold c x).rcs = s.rcs ∧ (s.putPitHold c x).freeCount = s.freeCount ∧
    (s.putPitHold c x).pending = s.pending :=
  by
  unfold State.putPitHold
  exact ⟨rfl, rfl, rfl, rfl, rfl, rfl, rfl, rfl, rfl, rfl, rfl, rfl⟩

@[simp] theorem State.putRow_fields (s : State) (r : RowId) (x : StoreRow) :
    (s.putRow r x).seq = s.seq ∧ (s.putRow r x).geo = s.geo ∧ (s.putRow r x).handsets = s.handsets ∧
    (s.putRow r x).binding = s.binding ∧ (s.putRow r x).tracker = s.tracker ∧ (s.putRow r x).lane = s.lane ∧
    (s.putRow r x).course = s.course ∧
    (s.putRow r x).store = ({ s.store with rows := modAt s.store.rows r fun _ => x }) ∧
    (s.putRow r x).ports = s.ports ∧ (s.putRow r x).rcs = s.rcs ∧ (s.putRow r x).freeCount = s.freeCount ∧
    (s.putRow r x).pending = s.pending :=
  by
  unfold State.putRow
  exact ⟨rfl, rfl, rfl, rfl, rfl, rfl, rfl, rfl, rfl, rfl, rfl, rfl⟩

@[simp] theorem State.putWriter_fields (s : State) (x : Writer) :
    (s.putWriter x).seq = s.seq ∧ (s.putWriter x).geo = s.geo ∧ (s.putWriter x).handsets = s.handsets ∧
    (s.putWriter x).binding = s.binding ∧ (s.putWriter x).tracker = s.tracker ∧ (s.putWriter x).lane = s.lane ∧
    (s.putWriter x).course = s.course ∧ (s.putWriter x).store = { s.store with writer := x } ∧
    (s.putWriter x).ports = s.ports ∧ (s.putWriter x).rcs = s.rcs ∧ (s.putWriter x).freeCount = s.freeCount ∧
    (s.putWriter x).pending = s.pending :=
  by
  unfold State.putWriter
  exact ⟨rfl, rfl, rfl, rfl, rfl, rfl, rfl, rfl, rfl, rfl, rfl, rfl⟩

@[simp] theorem State.answer_fields (s : State) (p : PortId) (r : Reply) :
    (s.answer p r).seq = s.seq ∧ (s.answer p r).geo = s.geo ∧ (s.answer p r).handsets = s.handsets ∧
    (s.answer p r).binding = s.binding ∧ (s.answer p r).tracker = s.tracker ∧ (s.answer p r).lane = s.lane ∧
    (s.answer p r).course = s.course ∧ (s.answer p r).store = s.store ∧
    (s.answer p r).ports =
      (modAt s.ports p fun pt => { pt with selLow := false, shiftFrame := [], checkError := false, reply := r }) ∧
    (s.answer p r).rcs = s.rcs ∧ (s.answer p r).freeCount = s.freeCount ∧ (s.answer p r).pending = s.pending :=
  by
  unfold State.answer
  exact ⟨rfl, rfl, rfl, rfl, rfl, rfl, rfl, rfl, rfl, rfl, rfl, rfl⟩

/-! ## Now, the rights and the switches are read through every update that leaves their block -/

theorem State.now_eq {s t : State} (h : t.seq = s.seq) : t.now = s.now := congrArg Sequencer.trackTime h

theorem State.switch_eq {s t : State} (h : t.lane.switches =
      s.lane.switches) (w : SwitchId) : t.switch w = s.switch w := by
  unfold State.switch; rw [h]

theorem State.modSwitch_switch (s : State) (w k : SwitchId) (f : SwitchState → SwitchState) :
    (s.modSwitch w f).switch k = if k = w then f (s.switch k) else s.switch k :=
  modAt_get s.lane.switches w k f

@[simp] theorem State.modSwitch_switch_self (s : State) (w : SwitchId) (f : SwitchState → SwitchState) :
    (s.modSwitch w f).switch w = f (s.switch w) := modAt_get_self s.lane.switches w f

theorem State.restSwitch_switch (s : State) (w k : SwitchId) (m : SwitchMode) (ps : Position) :
    (s.restSwitch w m ps).switch k = if k = w then { s.switch k with mode := m, position := ps } else s.switch k :=
  modAt_get s.lane.switches w k _

end Sys2Proof.Machine
end

