-- ==== Sys2Proof/Laws/Ports.lean ====
section
/-! SUPPORT. What the port operations do: an offered notice, a taken request, its replies, and the link error count. -/

namespace Sys2Proof.Machine

/-! ## Offered notices (R159) -/

theorem Port.offer_directive {pt : Port} {n : Notice} (h : n.body.cls = .directive) :
    pt.offer n = if pt.queue.length < 32 then { pt with queue := pt.queue ++ [n] } else pt := by
  simp only [Port.offer, h]

theorem Port.offer_alert {pt : Port} {n : Notice} (h : n.body.cls = .alert) :
    pt.offer n = if pt.queue.length < 32 then { pt with queue := pt.queue ++ [n] }
      else { pt with lostCount := min (pt.lostCount + 1) 255 } := by
  simp only [Port.offer, h]; rfl

theorem Port.offer_info {pt : Port} {n : Notice} (h : n.body.cls = .info) :
    pt.offer n = if pt.queue.length < pt.shedLevel ∧ pt.queue.length < 32 then { pt with queue := pt.queue ++ [n] }
      else { pt with shedCount := min (pt.shedCount + 1) 255 } := by
  simp only [Port.offer, h]
  by_cases h1 : pt.queue.length < pt.shedLevel ∧ pt.queue.length < 32
  · have h2 : (decide (pt.level < pt.shedLevel) && decide (pt.level < 32)) = true := by simpa [Port.level] using h1
    rw [if_pos h1, if_pos h2]
  · have h2 : ¬ (decide (pt.level < pt.shedLevel) && decide (pt.level < 32)) = true := by simpa [Port.level] using h1
    rw [if_neg h1, if_neg h2]; rfl

/-- An offer touches the queue, the shed count and the lost count alone. -/
theorem Port.offer_frame (pt : Port) (n : Notice) :
    pt.offer n = { pt with
      queue := (pt.offer n).queue, shedCount := (pt.offer n).shedCount, lostCount := (pt.offer n).lostCount } := by
  unfold Port.offer
  split <;> (try split) <;> rfl

@[simp] theorem Port.offer_fields (pt : Port) (n : Notice) :
    (pt.offer n).raceControl = pt.raceControl ∧ (pt.offer n).selLow = pt.selLow ∧
    (pt.offer n).shiftFrame = pt.shiftFrame ∧ (pt.offer n).reply = pt.reply ∧ (pt.offer n).staging = pt.staging ∧
    (pt.offer n).cursor = pt.cursor ∧ (pt.offer n).attentionLevel = pt.attentionLevel ∧
    (pt.offer n).shedLevel = pt.shedLevel ∧ (pt.offer n).linkErrors = pt.linkErrors ∧
    (pt.offer n).checkError = pt.checkError := by
  rw [Port.offer_frame]; simp

/-- An offer reads the queue and the shed level alone, so it commutes with every rewriting of the rest. -/
theorem Port.offer_comm (pt : Port) (n : Notice) (sel check : Bool) (frame : List Byte) (r : Reply) :
    ({ pt with selLow := sel, shiftFrame := frame, checkError := check, reply := r }).offer n =
      { pt.offer n with selLow := sel, shiftFrame := frame, checkError := check, reply := r } := by
  unfold Port.offer Port.level
  split <;> (try split) <;> rfl

theorem Port.offer_taken_comm (pt : Port) (n : Notice) :
    ({ pt with selLow := false, shiftFrame := [], checkError := false }).offer n =
      { pt.offer n with selLow := false, shiftFrame := [], checkError := false } := by
  unfold Port.offer Port.level
  split <;> (try split) <;> rfl

/-- An offered notice is queued at the tail, or the queue is left. -/
theorem Port.offer_queue (pt : Port) (n : Notice) :
    (pt.offer n).queue = pt.queue ++ [n] ∨ (pt.offer n).queue = pt.queue := by
  unfold Port.offer
  split <;> (try split) <;> simp

/-- An offer keeps a port as the links leave it. -/
theorem Port.offer_wf {pt : Port} (n : Notice) (h : pt.wf) : (pt.offer n).wf := by
  obtain ⟨hq, ha, hs, h1, h2, h3⟩ := h
  unfold Port.wf at *
  unfold Port.offer Port.level
  split <;> (try split) <;> simp_all [satInc]

/-! ## Offers to a set of ports -/

theorem State.offerWhere_ports (s : State) (dest : PortId → Bool) (body : NoticeBody) (q : PortId) :
    (s.offerWhere dest body).ports[q] =
      if dest q then (s.ports[q]).offer ⟨body, s.now.setWidth 16⟩ else s.ports[q] :=
  mapAll_get s.ports _ q

@[simp] theorem State.offerWhere_hasRights (s : State) (dest : PortId → Bool) (body : NoticeBody) :
    (s.offerWhere dest body).hasRights = s.hasRights := by
  funext q
  unfold State.hasRights
  rw [State.offerWhere_ports]
  split <;> simp

@[simp] theorem State.offerWhere_now (s : State) (dest : PortId → Bool) (body : NoticeBody) :
    (s.offerWhere dest body).now = s.now := rfl

@[simp] theorem State.offerTo_hasRights (s : State) (p : PortId) (body : NoticeBody) :
    (s.offerTo p body).hasRights = s.hasRights := State.offerWhere_hasRights ..

@[simp] theorem State.offerAll_hasRights (s : State) (body : NoticeBody) :
    (s.offerAll body).hasRights = s.hasRights := State.offerWhere_hasRights ..

@[simp] theorem State.offerRaceControl_hasRights (s : State) (body : NoticeBody) :
    (s.offerRaceControl body).hasRights = s.hasRights := State.offerWhere_hasRights ..

@[simp] theorem State.offerWithRaceControl_hasRights (s : State) (p : PortId) (body : NoticeBody) :
    (s.offerWithRaceControl p body).hasRights = s.hasRights := State.offerWhere_hasRights ..

/-- Offers keep every port as the links leave it. -/
theorem State.offerWhere_portsWf {s : State} (dest : PortId → Bool) (body : NoticeBody) (h : s.portsWf) :
    (s.offerWhere dest body).portsWf := by
  intro q
  rw [State.offerWhere_ports]
  split
  · exact Port.offer_wf _ (h q)
  · exact h q

theorem State.modPort_ports (s : State) (p q : PortId) (f : Port → Port) :
    (s.modPort p f).ports[q] = if q = p then f s.ports[q] else s.ports[q] := modAt_get s.ports p q f

/-! ## Taken requests (R153) -/

/-- The state that a request taken on port p acts on: the transaction ended, the check-error flag clear. -/
def State.taken (s : State) (p : PortId) : State :=
  s.modPort p fun pt => { pt with selLow := false, shiftFrame := [], checkError := false }

@[simp] theorem State.taken_fields (s : State) (p : PortId) :
    (s.taken p).seq = s.seq ∧ (s.taken p).geo = s.geo ∧ (s.taken p).handsets = s.handsets ∧
    (s.taken p).binding = s.binding ∧ (s.taken p).tracker = s.tracker ∧ (s.taken p).lane = s.lane ∧
    (s.taken p).course = s.course ∧ (s.taken p).store = s.store ∧ (s.taken p).rcs = s.rcs ∧
    (s.taken p).freeCount = s.freeCount ∧ (s.taken p).pending = s.pending ∧
    (s.taken p).ports = modAt s.ports p fun pt =>
      { pt with selLow := false, shiftFrame := [], checkError := false } := by
  unfold State.taken State.modPort
  exact ⟨rfl, rfl, rfl, rfl, rfl, rfl, rfl, rfl, rfl, rfl, rfl, rfl⟩

/-- The rise of SELn in a discarded transaction takes no request. -/
theorem State.riseOfSel_discarded {s : State} (p : PortId) (op : State → State) (h : (s.ports[p]).discarded = true) :
    s.riseOfSel p op = s.discardEnded p := by
  unfold State.riseOfSel
  rw [if_pos h]
  simp [State.endTransaction, State.discardEnded, State.modPort]

/-- The rise of SELn in any other transaction hands on its request. -/
theorem State.riseOfSel_kept {s : State} (p : PortId) (op : State → State) (h : (s.ports[p]).discarded = false) :
    s.riseOfSel p op = op (s.endTransaction p) := by
  unfold State.riseOfSel
  exact if_neg (by rw [show s.ports[p].discarded = false from h]; decide)

theorem State.request_discarded {s : State} (p : PortId) (op : State → State) (h : (s.ports[p]).discarded = true) :
    s.request p op = s.discardEnded p := State.riseOfSel_discarded p _ h

theorem State.request_starting {s : State} (p : PortId) (op : State → State) (h : s.seq.starting = true)
    (kept : (s.ports[p]).discarded = false) :
    s.request p op = s.modPort p fun pt =>
      { pt with selLow := false, shiftFrame := [], reply := .refused .starting } := by
  rw [State.request, State.riseOfSel_kept p _ kept]
  simp [State.endTransaction, State.refuse, State.reply, State.modPort, h]

theorem State.request_running {s : State} (p : PortId) (op : State → State) (h : s.takes p) :
    s.request p op = op (s.taken p) := by
  rw [State.request, State.riseOfSel_kept p _ h.2]
  simp [State.endTransaction, State.taken, State.modPort, h.1]

@[simp] theorem State.taken_done (s : State) (p : PortId) (l : List Byte) :
    (s.taken p).done p l = s.answer p (.done l) := by
  simp [State.taken, State.done, State.reply, State.answer, State.modPort]

@[simp] theorem State.taken_refuse (s : State) (p : PortId) (r : Reason) :
    (s.taken p).refuse p r = s.answer p (.refused r) := by
  simp [State.taken, State.refuse, State.reply, State.answer, State.modPort]

theorem State.taken_ports (s : State) (p q : PortId) :
    (s.taken p).ports[q] =
      if q = p then { s.ports[q] with selLow := false, shiftFrame := [], checkError := false } else s.ports[q] :=
  modAt_get s.ports p q _

@[simp] theorem State.taken_hasRights (s : State) (p : PortId) : (s.taken p).hasRights = s.hasRights := by
  funext q
  unfold State.hasRights
  rw [State.taken_ports]
  split <;> rfl

@[simp] theorem State.taken_now (s : State) (p : PortId) : (s.taken p).now = s.now := rfl

@[simp] theorem State.taken_switch (s : State) (p : PortId) : (s.taken p).switch = s.switch := rfl

/-- Taking a request and offering a notice commute. -/
theorem State.taken_offerWhere (s : State) (p : PortId) (dest : PortId → Bool) (body : NoticeBody) :
    (s.taken p).offerWhere dest body = (s.offerWhere dest body).taken p := by
  have : (mapAll (s.taken p).ports fun q pt => if dest q then pt.offer ⟨body, s.now.setWidth 16⟩ else pt) =
      modAt (mapAll s.ports fun q pt => if dest q then pt.offer ⟨body, s.now.setWidth 16⟩ else pt) p fun pt =>
        { pt with selLow := false, shiftFrame := [], checkError := false } :=
    bank_ext fun q => by
      rw [mapAll_get, State.taken_ports, modAt_get, mapAll_get]
      by_cases hq : q = p
      · by_cases hd : dest q = true
        · rw [if_pos hd, if_pos hq, if_pos hq, if_pos hd]
          exact Port.offer_taken_comm (s.ports[q]) _
        · simp [hq, hq ▸ hd]
      · simp [hq]
  show ({ s.taken p with ports := _ } : State) = _
  unfold State.offerWhere
  rw [State.taken_now, this]
  rfl

/-- Race control alone is let in to a reserved request (R114). -/
theorem State.reserved_with {s : State} {p : PortId} (op : State → State) (h : (s.ports[p]).raceControl = true) :
    s.reserved p op = op s := by
  have : s.hasRights p = true := h
  simp [State.reserved, this]

theorem State.reserved_without {s : State} {p : PortId} (op : State → State) (h : (s.ports[p]).raceControl = false) :
    s.reserved p op = s.refuse p .notPermitted := by
  have : s.hasRights p = false := h
  simp [State.reserved, this]

/-- A RANGE refusal names one of the offending places; with several, the free value chooses (R154). -/
theorem State.refuseRange_spec (s : State) (p : PortId) (places : List Byte) (h : places ≠ []) :
    ∃ (k : Byte) (n : Nat), k ∈ places ∧ s.refuseRange p places = ({ s with freeCount := n }).refuse p (.range k) := by
  match places, h with
  | [k], _ => exact ⟨k, s.freeCount, by simp, rfl⟩
  | a :: b :: rest, _ =>
    have hlt : Config.offendingChoice s.freeCount % (a :: b :: rest).length < (a :: b :: rest).length :=
      Nat.mod_lt _ (by simp)
    refine ⟨(a :: b :: rest).getD (Config.offendingChoice s.freeCount % (a :: b :: rest).length) 0,
      s.freeCount + 1, ?_, rfl⟩
    rw [List.getD_eq_getElem _ _ hlt]
    exact List.getElem_mem hlt

/-! ## Answers -/

theorem State.answer_ports (s : State) (p q : PortId) (r : Reply) :
    (s.answer p r).ports[q] =
      if q = p then { s.ports[q] with selLow := false, shiftFrame := [], checkError := false, reply := r }
      else s.ports[q] := modAt_get s.ports p q _

/-- An answer and an offer commute. -/
theorem State.answer_offerWhere (s : State) (p : PortId) (r : Reply) (dest : PortId → Bool) (body : NoticeBody) :
    (s.answer p r).offerWhere dest body = (s.offerWhere dest body).answer p r := by
  have : (mapAll (s.answer p r).ports fun q pt => if dest q then pt.offer ⟨body, s.now.setWidth 16⟩ else pt) =
      modAt (mapAll s.ports fun q pt => if dest q then pt.offer ⟨body, s.now.setWidth 16⟩ else pt) p fun pt =>
        { pt with selLow := false, shiftFrame := [], checkError := false, reply := r } :=
    bank_ext fun q => by
      rw [mapAll_get, State.answer_ports, modAt_get, mapAll_get]
      by_cases hq : q = p
      · by_cases hd : dest q = true
        · rw [if_pos hd, if_pos hq, if_pos hq, if_pos hd]
          exact Port.offer_comm (s.ports[q]) _ false false [] r
        · simp [hq, hq ▸ hd]
      · simp [hq]
  show ({ s.answer p r with ports := _ } : State) = _
  unfold State.offerWhere
  have hn : (s.answer p r).now = s.now := rfl
  rw [hn, this]
  rfl

/-- A link error is counted up to 255, and the step from 15 to 16 is told to race control (R153). -/
theorem State.countLinkError_cases (s : State) (p : PortId) :
    let counted := s.modPort p fun pt => { pt with linkErrors := min (s.ports[p].linkErrors + 1) 255 }
    s.countLinkError p = if s.ports[p].linkErrors = 15 then counted.offerRaceControl (.linkErrors p 16) else counted :=
  rfl

end Sys2Proof.Machine
end

