-- ==== Sys2Proof/Laws/Blocks.lean ====
section
/-! SUPPORT. The layout checks, the Bind Store's rows, marks and choices, the parts of the rail frame, and the running speed,
as the statements say them. -/

namespace Sys2Proof.Machine

/-! ## Layout checks (Table 1-6) -/

theorem Sensor.entersSwitch_iff {n : Sensor} {w : SwitchId} :
    n.entersSwitch w = true ↔ n.defined = true ∧ ∃ z : ZoneId, n.kind = .entry z w := by
  unfold Sensor.entersSwitch
  rcases n with ⟨d, k, o, r⟩
  cases k <;> simp

/-- Exactly one record of a bank meets a test when the test counts one. -/
theorem countP_bank_one {α : Type} {n : Nat} (v : Vector α n) (p : α → Bool) :
    v.toList.countP p = 1 ↔ ∃! i : Fin n, p v[i] = true := by
  have hv : v.toList = (List.finRange n).map fun i => v[i] := by
    apply List.ext_getElem (by simp)
    intro k h1 h2
    simp
  have hc : v.toList.countP p = ((List.finRange n).filter fun i => p v[i]).length := by
    rw [hv, List.countP_map, List.countP_eq_length_filter]
    rfl
  rw [hc]
  have hn : ((List.finRange n).filter fun i => p v[i]).Nodup := (List.nodup_finRange n).filter _
  constructor
  · intro h
    obtain ⟨i, hi⟩ := List.length_eq_one_iff.1 h
    have hm : ∀ j : Fin n, p v[j] = true ↔ j = i := fun j => by
      have : j ∈ (List.finRange n).filter (fun i => p v[i]) ↔ j ∈ [i] := by rw [hi]
      simpa using this
    exact ⟨i, (hm i).2 rfl, fun j hj => (hm j).1 hj⟩
  · rintro ⟨i, hi, hu⟩
    apply List.length_eq_one_iff.2
    refine ⟨i, List.perm_singleton.1 ((List.perm_ext_iff_of_nodup hn (List.nodup_singleton i)).2 fun j => ?_)⟩
    simp only [List.mem_filter, List.mem_finRange, true_and, List.mem_singleton]
    exact ⟨fun hj => hu j hj, fun hj => hj ▸ hi⟩

theorem Geometry.switchOk_iff (g : Geometry) (w : SwitchId) : g.switchOk w = true ↔ g.switchSound w := by
  have h8 : (∃! n : SensorId, (g.sensors[n]).entersSwitch w = true) ↔
      ∃! n : SensorId, g.sensors[n].defined = true ∧ ∃ z : ZoneId, g.sensors[n].kind = .entry z w :=
    existsUnique_congr fun n => Sensor.entersSwitch_iff
  unfold Geometry.switchOk Geometry.switchSound
  simp only [Bool.and_eq_true, beq_iff_eq, countP_bank_one, h8, bne_iff_ne, Option.all_eq_true]
  have hk : ∀ a b : Byte, kindLanesOk g.switches[w].kind a b = true ↔
      (g.switches[w].kind = .crossover → a ≠ 4 ∧ b ≠ 4) ∧ (g.switches[w].kind = .pitEntry → b = 4 ∧ a ≠ 4) ∧
        (g.switches[w].kind = .pitExit → a = 4 ∧ b ≠ 4) := by
    intro a b
    cases g.switches[w].kind <;> simp [kindLanesOk]
  rw [hk]
  constructor
  · rintro ⟨⟨⟨⟨⟨⟨h1, h2⟩, h3⟩, h4⟩, h5, h6, h7⟩, h9⟩, h10⟩
    exact ⟨h1, h2, fun z hz => ⟨h3 z hz, h9 z hz⟩, h4, h5, h6, h7, h10⟩
  · rintro ⟨h1, h2, h3, h4, h5, h6, h7, h10⟩
    exact ⟨⟨⟨⟨⟨⟨h1, h2⟩, fun z hz => (h3 z hz).1⟩, h4⟩, h5, h6, h7⟩, fun z hz => (h3 z hz).2⟩, h10⟩

theorem Geometry.sensorOk_iff (g : Geometry) (n : SensorId) : g.sensorOk n = true ↔ g.sensorSound n := by
  unfold Geometry.sensorOk Geometry.sensorSound
  cases g.sensors[n].kind <;> simp [and_assoc]

/-! ## The Bind Store (R142 to R146) -/

theorem entryOfRow_car (c : CarId) : entryOfRow (rowOfCar c) = .car c := by
  have h : (rowOfCar c).val < 16 := c.isLt
  unfold entryOfRow
  rw [dif_pos h]
  rfl

theorem entryOfRow_marshal (m : MarshalId) : entryOfRow (rowOfMarshal m) = .marshal m := by
  have h : ¬ (rowOfMarshal m).val < 16 := by simp [rowOfMarshal]
  unfold entryOfRow
  rw [dif_neg h]
  simp [rowOfMarshal]

/-- Every row is a car's or a marshal entry's. -/
theorem row_cases (r : RowId) : (∃ c : CarId, r = rowOfCar c) ∨ ∃ m : MarshalId, r = rowOfMarshal m := by
  by_cases h : r.val < 16
  · exact .inl ⟨⟨r.val, h⟩, rfl⟩
  · refine .inr ⟨⟨r.val - 16, by omega⟩, Fin.ext ?_⟩
    simp [rowOfMarshal]; omega

/-- The void check agrees with no content. -/
theorem contentCheck_ne_void (content : StoreContent) : contentCheck content ≠ Config.voidCheck := by
  have hk := (Config.contentCheck content).isLt
  intro e
  have h := congrArg BitVec.toNat e
  unfold contentCheck at h
  rw [BitVec.toNat_ofNat] at h
  split at h <;> omega

/-- A row's check agrees with its content exactly when the two do not differ. -/
theorem rowCheck_eq_iff (row : StoreRow) (content : StoreContent) (h : row.content = some content) :
    rowCheck row = contentCheck content ↔ row.checkDiff = 0 := by
  unfold rowCheck
  rw [h, Option.elim_some]
  constructor
  · intro e
    have h := congrArg (contentCheck content ^^^ ·) e
    simpa [← BitVec.xor_assoc] using h
  · intro e
    simp [e]

/-- Every check is held: one difference stands for it. -/
theorem exists_rowCheck (content : Option StoreContent) (check : Byte) :
    ∃! row : StoreRow, row.content = content ∧ rowCheck row = check := by
  refine ⟨StoreRow.mk content (content.elim Config.voidCheck contentCheck ^^^ check), ⟨rfl, ?_⟩, ?_⟩
  · simp [rowCheck]
  · rintro ⟨x, d⟩ ⟨rfl, rfl⟩
    simp [rowCheck]

theorem voidRow_check (content : StoreContent) : rowCheck voidRow ≠ contentCheck content := by
  intro e
  refine contentCheck_ne_void content (e.symm.trans ?_)
  simp [rowCheck, voidRow]

theorem rowOf_check (content : StoreContent) : rowCheck (rowOf content) = contentCheck content :=
  (rowCheck_eq_iff _ _ rfl).2 rfl

theorem contentInRange_iff (r : RowId) (content : StoreContent) : contentInRange r content = true ↔ contentOk r content := by
  have hi : ∀ i : Option Ident, storedIdentityOk i = true ↔ i ≠ some 0 ∧ i ≠ some 0xFFFF := by
    intro i
    cases i <;> simp [storedIdentityOk]
  cases content <;> simp [contentInRange, contentOk, hi, isMarshalRow, and_assoc]

/-- A row is VALID with a content when its check agrees with it and the content is in range. -/
theorem State.validRow_iff (s : State) (r : RowId) (content : StoreContent) :
    s.validRow r = some content ↔ s.store.rows[r].content = some content ∧
      rowCheck s.store.rows[r] = contentCheck content ∧ contentOk r content := by
  unfold State.validRow
  simp only
  by_cases hd : (s.store.rows[r]).checkDiff = 0
  · rw [if_pos hd, Option.filter_eq_some_iff, contentInRange_iff]
    exact ⟨fun h => ⟨h.1, (rowCheck_eq_iff _ _ h.1).2 hd, h.2⟩, fun h => ⟨h.1, h.2.2⟩⟩
  · rw [if_neg hd]
    exact ⟨fun h => absurd h.symm (Option.some_ne_none content), fun h => absurd ((rowCheck_eq_iff _ _ h.1).1 h.2.1) hd⟩

/-- A row without a content is INVALID. -/
theorem State.validRow_void (s : State) (r : RowId) (h : s.store.rows[r] = voidRow) : s.validRow r = none := by
  unfold State.validRow
  rw [h]
  rfl

/-- A row written with a content in range is VALID. -/
theorem State.validRow_rowOf (s : State) (r : RowId) (content : StoreContent) (h : s.store.rows[r] = rowOf content)
    (ok : contentOk r content) : s.validRow r = some content :=
  (s.validRow_iff r content).2 ⟨congrArg StoreRow.content h, (congrArg rowCheck h).trans (rowOf_check content), ok⟩

theorem State.setMark_eq (s : State) (r : RowId) (mark : Mark) : s.setMark r mark = { s with binding := s.marked r mark } := by
  rcases row_cases r with ⟨c, rfl⟩ | ⟨m, rfl⟩
  · unfold State.setMark State.marked
    rw [entryOfRow_car]
    simp only
    congr 2
    · refine bank_ext fun k => ?_
      rw [modAt_get, mapAll_get]
      by_cases hk : k = c
      · rw [if_pos hk, if_pos (show k.val = (rowOfCar c).val from congrArg Fin.val hk)]
      · rw [if_neg hk, if_neg (fun e : k.val = (rowOfCar c).val => hk (Fin.ext e))]
    · refine (bank_ext fun k => ?_)
      rw [mapAll_get, if_neg]
      have := c.isLt
      simp only [rowOfCar]; omega
  · unfold State.setMark State.marked
    rw [entryOfRow_marshal]
    simp only
    congr 2
    · refine (bank_ext fun k => ?_)
      rw [mapAll_get, if_neg]
      have := k.isLt
      simp only [rowOfMarshal]; omega
    · refine bank_ext fun k => ?_
      rw [modAt_get, mapAll_get]
      by_cases hk : k = m
      · rw [if_pos hk, if_pos (show 16 + k.val = (rowOfMarshal m).val from congrArg (16 + Fin.val ·) hk)]
      · rw [if_neg hk, if_neg (fun e : 16 + k.val = (rowOfMarshal m).val => hk (Fin.ext (Nat.add_left_cancel e)))]

theorem State.eligible_iff (s : State) (r : RowId) : s.eligible r = true ↔ s.mayCommit r := by
  rcases row_cases r with ⟨c, rfl⟩ | ⟨m, rfl⟩
  · have h : isMarshalRow (rowOfCar c) = false := 
      decide_eq_false (Nat.not_le.2 c.isLt)
    simp only [State.eligible, State.entryMark, entryOfRow_car, h, Bool.not_false, Bool.true_or, Bool.and_true,
      beq_iff_eq, State.mayCommit]
    constructor
    · intro hd
      refine ⟨fun k hk => ?_, fun m hm => ?_⟩
      · rw [← (Fin.ext hk : c = k)]; exact hd
      · have := c.isLt; simp [rowOfCar] at hm; omega
    · exact fun hd => hd.1 c rfl
  · have h : isMarshalRow (rowOfMarshal m) = true := by simp [isMarshalRow, rowOfMarshal]
    simp only [State.eligible, State.entryMark, entryOfRow_marshal, h, Bool.not_true, Bool.false_or, Bool.and_eq_true,
      beq_iff_eq, State.mayCommit]
    constructor
    · intro hd
      refine ⟨fun c hc => ?_, fun k hk => ?_⟩
      · have := c.isLt; simp [rowOfMarshal] at hc; omega
      · have : m = k := Fin.ext (by simp [rowOfMarshal] at hk; omega)
        rw [← this]; exact hd
    · exact fun hd => hd.2 m rfl

theorem Permit.byte_eq (p : Permit) : p.byte = match p with | .allowed => 0 | .barred => 1 := by
  cases p <;> rfl

theorem State.snapshot_spec (s : State) (r : RowId) (origin : Origin) : s.snapshotOf r origin (s.snapshot r origin) := by
  rcases row_cases r with ⟨c, rfl⟩ | ⟨m, rfl⟩
  · unfold State.snapshot
    rw [entryOfRow_car]
    refine ⟨rfl, rfl, rfl, fun k hk => ?_, fun m hm => ?_⟩
    · rw [← (Fin.ext hk : c = k)]
      exact ⟨congrArg (StoreContent.car _ _) (Permit.byte_eq _), rfl⟩
    · have := c.isLt; simp [rowOfCar] at hm; omega
  · unfold State.snapshot
    rw [entryOfRow_marshal]
    refine ⟨rfl, rfl, rfl, fun c hc => ?_, fun k hk => ?_⟩
    · have := c.isLt; simp [rowOfMarshal] at hc; omega
    · have : m = k := Fin.ext (by simp [rowOfMarshal] at hk; omega)
      rw [← this]; exact ⟨rfl, rfl⟩

/-! ## The parts of the rail frame (R131) -/

/-- The bit period after position b is inside the part of b, unless it begins a part. -/
theorem lt_partEnd_iff (b : Fin 200) : b.val + 1 < partEnd b.val ↔ ¬ beginsPart (b.val + 1) := by
  unfold beginsPart
  revert b
  decide +kernel

theorem partEnd_eq_12 (b : Fin 200) : partEnd b.val = 12 ↔ b.val < 12 := by
  revert b
  decide +kernel

theorem partEnd_eq_184 (b : Fin 200) : partEnd b.val = 184 ↔ 174 ≤ b.val ∧ b.val < 184 := by
  revert b
  decide +kernel

theorem partEnd_eq_200 (b : Fin 200) : partEnd b.val = 200 ↔ 184 ≤ b.val := by
  revert b
  decide +kernel

/-- The part before the slot of car c: the broadcast word for car 1, the slot of the car before for every other. -/
theorem partEnd_eq_car (c : CarId) (b : Fin 200) : partEnd b.val = (carPosition c).val ↔
    c = 0 ∧ 12 ≤ b.val ∧ b.val < 24 ∨ c ≠ 0 ∧ 14 + 10 * c.val ≤ b.val ∧ b.val < 24 + 10 * c.val := by
  have hp : (carPosition c).val = 24 + 10 * c.val := rfl
  have hb := b.isLt
  have h0 : c = 0 ↔ c.val = 0 := Fin.ext_iff
  rw [hp, ne_eq, h0]
  unfold partEnd
  split_ifs <;> omega

theorem State.reaches_iff (s : State) (p : Nat) : s.seq.reaches p = true ↔ s.reachesBit p := decide_eq_true_iff

/-- A part is due while a frame is being sent, in the part before it, from its own millisecond on. -/
theorem State.partDue_iff (s : State) (p : Nat) :
    s.seq.partDue p = true ↔ s.seq.running = true ∧ partEnd s.seq.bitCounter.val = p ∧ s.reachesBit p := by
  rw [← State.reaches_iff, Sequencer.partDue, Bool.and_eq_true, Bool.and_eq_true, beq_iff_eq, and_assoc]

/-- A bit period counts one on inside the part being sent, or leaves the state. -/
theorem State.bitPeriod_cases (s : State) :
    (∃ p : Fin 200, p.val = s.seq.bitCounter.val + 1 ∧ s.seq.running = true ∧ ¬ beginsPart p.val ∧
      s.reachesBit p.val ∧ s.bitPeriod = { s with seq := { s.seq with bitCounter := p } }) ∨
    ((s.seq.running = false ∨ beginsPart (s.seq.bitCounter.val + 1) ∨ ¬ s.reachesBit (s.seq.bitCounter.val + 1)) ∧
      s.bitPeriod = s) := by
  unfold State.bitPeriod
  by_cases h : s.seq.bitCounter.val + 1 < 200
  · rw [dif_pos h]
    by_cases g : (s.seq.running && decide (s.seq.bitCounter.val + 1 < partEnd s.seq.bitCounter.val) &&
        s.seq.reaches (s.seq.bitCounter.val + 1)) = true
    · rw [if_pos g]
      rw [Bool.and_eq_true, Bool.and_eq_true, decide_eq_true_iff, lt_partEnd_iff, State.reaches_iff] at g
      exact .inl ⟨⟨_, h⟩, rfl, g.1.1, g.1.2, g.2, rfl⟩
    · rw [if_neg g]
      rw [Bool.and_eq_true, Bool.and_eq_true, decide_eq_true_iff, lt_partEnd_iff, State.reaches_iff] at g
      refine .inr ⟨?_, rfl⟩
      cases e : s.seq.running
      · exact .inl rfl
      · exact .inr (by tauto)
  · rw [dif_neg h]
    exact .inr ⟨.inr (.inl (.inr (.inr (.inl (by have := s.seq.bitCounter.isLt; omega))))), rfl⟩

/-! ## The running speed (R138) -/

theorem foldl_min_le (l : List Nat) (a : Nat) : l.foldl min a ≤ a ∧ ∀ x ∈ l, l.foldl min a ≤ x := by
  induction l generalizing a with
  | nil => simp
  | cons b bs ih =>
    obtain ⟨h1, h2⟩ := ih (min a b)
    simp only [List.foldl_cons]
    refine ⟨by omega, fun x hx => ?_⟩
    rcases List.mem_cons.1 hx with rfl | hx
    · omega
    · exact h2 x hx

theorem foldl_min_mem (l : List Nat) (a : Nat) : l.foldl min a = a ∨ l.foldl min a ∈ l := by
  induction l generalizing a with
  | nil => simp
  | cons b bs ih =>
    simp only [List.foldl_cons]
    rcases ih (min a b) with h | h
    · rw [h]
      rcases Nat.le_total a b with hab | hab
      · exact .inl (Nat.min_eq_left hab)
      · exact .inr (by rw [Nat.min_eq_right hab]; simp)
    · exact .inr (List.mem_cons_of_mem _ h)

/-- The terms of the running speed are its bounds. -/
theorem State.speedTerms_iff (s : State) (c : CarId) (throttle v : BitVec 6) :
    v.toNat ∈ s.speedTerms c throttle ↔ s.speedBound c throttle v := by
  have e : ∀ x : BitVec 6, v.toNat = x.toNat ↔ v = x := fun x => ⟨BitVec.eq_of_toNat_eq, fun h => h ▸ rfl⟩
  have e0 : v.toNat = 0 ↔ v = 0 := e 0
  have hp : ((s.tracker.cars[c].placed).any fun pl => s.geo.zones[pl.zone].lane == 4) = true ↔
      ∃ pl : Placed, s.tracker.cars[c].placed = some pl ∧ s.geo.zones[pl.zone].lane = 4 := by
    rw [Option.any_eq_true]
    exact exists_congr fun pl => and_congr_right fun _ => beq_iff_eq
  have m1 : v.toNat ∈ (if s.course.course = .caution then [s.course.settings.cautionCap.toNat] else []) ↔
      s.course.course = .caution ∧ v = s.course.settings.cautionCap := by split <;> simp_all
  have m2 : v.toNat ∈ (if ((s.tracker.cars[c].placed).any fun pl => s.geo.zones[pl.zone].lane == 4) = true
      then [s.course.settings.pitLimit.toNat] else []) ↔
      (∃ pl : Placed, s.tracker.cars[c].placed = some pl ∧ s.geo.zones[pl.zone].lane = 4) ∧
        v = s.course.settings.pitLimit := by
    rw [← hp]
    split <;> simp_all
  have m3 : v.toNat ∈ (s.lane.conflictCaps[c]).toList.map (·.value.toNat) ↔
      ∃ cap : ConflictCap, s.lane.conflictCaps[c] = some cap ∧ v = cap.value := by
    cases s.lane.conflictCaps[c] <;> simp [e]
  have m4 : v.toNat ∈ (s.lane.busyCaps[c]).toList.map (·.value.toNat) ↔
      ∃ cap : BusyCap, s.lane.busyCaps[c] = some cap ∧ v = cap.value := by
    cases s.lane.busyCaps[c] <;> simp [e]
  have m5 : v.toNat ∈ ((s.lane.pitHolds[c]).toList.map fun _ => 0) ↔ s.lane.pitHolds[c] ≠ none ∧ v = 0 := by
    cases s.lane.pitHolds[c] <;> simp [e0]
  have m0 : v.toNat ∈ [throttle.toNat, s.binding.bindings[c].ceiling.toNat] ↔
      v = throttle ∨ v = s.binding.bindings[c].ceiling := by
    rw [List.mem_cons, List.mem_singleton, e, e]
  unfold State.speedTerms State.speedBound
  rw [List.mem_append, List.mem_append, List.mem_append, List.mem_append, List.mem_append, m0, m3, m4, m5]
  rw [or_assoc, or_assoc, or_assoc, or_assoc, or_assoc]
  exact or_congr_right (or_congr_right (or_congr m1 (or_congr m2 Iff.rfl)))

/-- The running speed is a bound, and the least of them. -/
theorem State.runningSpeed_spec (s : State) (c : CarId) (throttle : BitVec 6) :
    s.speedBound c throttle (s.runningSpeed c throttle) ∧
      ∀ v : BitVec 6, s.speedBound c throttle v → s.runningSpeed c throttle ≤ v := by
  have ht : throttle.toNat ∈ s.speedTerms c throttle := by simp [State.speedTerms]
  have hlt := throttle.isLt
  obtain ⟨-, hle⟩ := foldl_min_le (s.speedTerms c throttle) 63
  have h63 : (s.speedTerms c throttle).foldl min 63 < 64 := by have := hle _ ht; omega
  have hn : (s.runningSpeed c throttle).toNat = (s.speedTerms c throttle).foldl min 63 := by
    simp [State.runningSpeed, Nat.mod_eq_of_lt h63]
  constructor
  · rw [← State.speedTerms_iff, hn]
    rcases foldl_min_mem (s.speedTerms c throttle) 63 with h | h
    · have h2 := hle _ ht
      rw [h] at h2 ⊢
      have : throttle.toNat = 63 := by omega
      rw [← this]; exact ht
    · exact h
  · intro v hv
    rw [BitVec.le_def, hn]
    exact hle _ ((State.speedTerms_iff ..).2 hv)

end Sys2Proof.Machine
end

