-- ==== Sys2Proof/Laws/Decisions.lean ====
section
/-! SUPPORT. The checks of a decision are those of Table 5-3 and R90, in their order. -/

namespace Sys2Proof.Machine

/-- The first failing check of a list. -/
theorem firstFailing_eq_some {checks : List (Bool × DecisionReason)} {r : DecisionReason} :
    firstFailing checks = some r ↔
      ∃ before after : List (Bool × DecisionReason), checks = before ++ (true, r) :: after ∧ ∀ q ∈ before, q.1 = false := by
  unfold firstFailing
  rw [Option.map_eq_some_iff]
  constructor
  · rintro ⟨⟨b, q⟩, hf, rfl⟩
    obtain ⟨hb, as, bs, heq, hno⟩ := List.find?_eq_some_iff_append.1 hf
    simp at hb
    exact ⟨as, bs, by rw [heq, hb], fun x hx => by simpa using hno x hx⟩
  · rintro ⟨as, bs, heq, hno⟩
    exact ⟨(true, r), List.find?_eq_some_iff_append.2 ⟨rfl, as, bs, heq, fun x hx => by simp [hno x hx]⟩, rfl⟩

theorem firstFailing_eq_none {checks : List (Bool × DecisionReason)} :
    firstFailing checks = none ↔ ∀ q ∈ checks, q.1 = false := by
  simp [firstFailing]

/-- A list of checks, each Bool of which says whether its reason fails, finds the first reason of its order that does. -/
theorem firstFailing_of_order {checks : List (Bool × DecisionReason)} {fails : DecisionReason → Prop}
    (h : ∀ q ∈ checks, q.1 = true ↔ fails q.2) (r : DecisionReason) :
    firstFailing checks = some r ↔
      ∃ before after : List DecisionReason, checks.map (·.2) = before ++ r :: after ∧ fails r ∧ ∀ q ∈ before, ¬ fails q := by
  rw [firstFailing_eq_some]
  constructor
  · rintro ⟨as, bs, rfl, hno⟩
    refine ⟨as.map (·.2), bs.map (·.2), by simp, (h (true, r) (by simp)).1 rfl, ?_⟩
    intro q hq hf
    obtain ⟨x, hx, rfl⟩ := List.mem_map.1 hq
    have := (h x (by simp [hx])).2 hf
    simp [hno x hx] at this
  · rintro ⟨before, after, heq, hf, hno⟩
    obtain ⟨as, bs', rfl, ha, hb⟩ := List.map_eq_append_iff.1 heq
    obtain ⟨⟨b, r'⟩, bs, rfl, hr, hbs⟩ := List.map_eq_cons_iff.1 hb
    simp only at hr
    subst hr
    refine ⟨as, bs, ?_, ?_⟩
    · have hb' : b = true := (h (b, r') (by simp)).2 hf
      rw [hb']
    · intro x hx
      by_contra hc
      exact hno x.2 (ha ▸ List.mem_map_of_mem hx) ((h x (by simp [hx])).1 (by simpa using hc))

theorem firstFailing_none_of_order {checks : List (Bool × DecisionReason)} {fails : DecisionReason → Prop}
    (h : ∀ q ∈ checks, q.1 = true ↔ fails q.2) :
    firstFailing checks = none ↔ ∀ r ∈ checks.map (·.2), ¬ fails r := by
  rw [firstFailing_eq_none]
  constructor
  · intro hn r hr hf
    obtain ⟨x, hx, rfl⟩ := List.mem_map.1 hr
    have := (h x hx).2 hf
    simp [hn x hx] at this
  · intro hn x hx
    by_contra hc
    exact hn x.2 (List.mem_map_of_mem hx) ((h x hx).1 (by simpa using hc))

/-! ## The two lists of checks -/

theorem State.runStateChecks_fails (s : State) (c : CarId) (w : SwitchId) :
    ∀ q ∈ s.runStateChecks w, q.1 = true ↔ s.fails c w q.2 := by
  intro q hq
  simp only [State.runStateChecks, List.mem_cons, List.not_mem_nil, or_false] at hq
  rcases hq with rfl | rfl | rfl <;> simp only [State.fails] <;>
    cases (s.switch w).mode <;> simp [SwitchMode.inMotion, SwitchMode.runState]

theorem State.passageChecks_fails (s : State) (c : CarId) (w : SwitchId) :
    ∀ q ∈ s.passageChecks w, q.1 = true ↔ s.fails c w q.2 := by
  intro q hq
  simp only [State.passageChecks, List.mem_cons, List.not_mem_nil, or_false] at hq
  rcases hq with rfl | rfl | rfl | rfl | rfl
  · simp only [State.fails, State.holdsStalled, List.any_eq_true, Option.any_eq_true]
  · simp only [State.fails, State.nearStart, List.any_eq_true]
    exact ⟨fun ⟨o, ho, hd⟩ => ⟨o, ho, of_decide_eq_true hd⟩, fun ⟨o, ho, hd⟩ => ⟨o, ho, decide_eq_true hd⟩⟩
  · simp only [State.fails, State.atCapacity, decide_eq_true_eq]
  · simp only [State.fails, State.approached, List.any_eq_true, Option.any_eq_true]
    exact ⟨fun ⟨z, hz, o, ho, hd⟩ => ⟨z, hz, o, ho, of_decide_eq_true hd⟩,
      fun ⟨z, hz, o, ho, hd⟩ => ⟨z, hz, o, ho, decide_eq_true hd⟩⟩
  · have e : s.queueFull (s.switchOwner w) = decide (32 ≤ (s.ports[s.geo.switches[w].owner]).queue.length) := rfl
    simp only [State.fails, e, decide_eq_true_eq]

theorem State.laneChecks_fails (s : State) (c : CarId) (w : SwitchId) :
    ∀ q ∈ s.laneChecks c w, q.1 = true ↔ s.fails c w q.2 := by
  intro q hq
  simp only [State.laneChecks, List.mem_append, List.mem_cons, List.not_mem_nil, or_false] at hq
  rcases hq with (((rfl | rfl) | hq) | (rfl | rfl)) | hq
  · simp only [State.fails, State.courseHolds, Bool.or_eq_true, Bool.and_eq_true, beq_iff_eq, or_assoc]
  · simp only [State.fails, beq_iff_eq]
  · exact s.runStateChecks_fails c w q hq
  · simp only [State.fails]
  · simp only [State.fails, Bool.and_eq_true, beq_iff_eq, Bool.not_eq_true']
  · exact s.passageChecks_fails c w q hq

theorem State.exitChecks_fails (s : State) (c : CarId) (w : SwitchId) (h : s.geo.switches[w].kind = .pitExit) :
    ∀ q ∈ s.exitChecks w, q.1 = true ↔ s.fails c w q.2 := by
  intro q hq
  simp only [State.exitChecks, List.mem_append, List.mem_cons] at hq
  rcases hq with rfl | hq | hq
  · simp only [State.fails, State.courseHolds, Bool.or_eq_true, beq_iff_eq, h, reduceCtorEq, and_false, or_false]
  · exact s.runStateChecks_fails c w q hq
  · exact s.passageChecks_fails c w q hq

/-- R87: the decision at a CROSSOVER or PIT_ENTRY is by the first failing check of Table 5-3. -/
theorem State.laneDecision_some (s : State) (c : CarId) (w : SwitchId) (r : DecisionReason) :
    firstFailing (s.laneChecks c w) = some r ↔ s.firstFails c w laneOrder r :=
  firstFailing_of_order (s.laneChecks_fails c w) r

theorem State.laneDecision_none (s : State) (c : CarId) (w : SwitchId) :
    firstFailing (s.laneChecks c w) = none ↔ ∀ r ∈ laneOrder, ¬ s.fails c w r :=
  firstFailing_none_of_order (s.laneChecks_fails c w)

/-- R90: the decision at a PIT_EXIT is by the first failing check of its own list. -/
theorem State.exitDecision_some (s : State) (c : CarId) (w : SwitchId) (r : DecisionReason)
    (h : s.geo.switches[w].kind = .pitExit) :
    firstFailing (s.exitChecks w) = some r ↔ s.firstFails c w exitOrder r :=
  firstFailing_of_order (s.exitChecks_fails c w h) r

theorem State.exitDecision_none (s : State) (c : CarId) (w : SwitchId) (h : s.geo.switches[w].kind = .pitExit) :
    firstFailing (s.exitChecks w) = none ↔ ∀ r ∈ exitOrder, ¬ s.fails c w r :=
  firstFailing_none_of_order (s.exitChecks_fails c w h)

end Sys2Proof.Machine
end

