-- ==== Sys2Proof/Laws/Frames.lean ====
section
/-! SUPPORT. What a request frame's bits spell, and how many bytes a record's image has. -/

namespace Sys2Proof.Machine

/-! ## Bits and bytes -/

theorem byteOfBits_bitsOf (b : Byte) : byteOfBits (bitsOf b) = b := by
  have h : ∀ n : Fin 256, byteOfBits (bitsOf (BitVec.ofFin n : Byte)) = BitVec.ofFin n := by decide +kernel
  exact h b.toFin

theorem bitsOf_length {n : Nat} (x : BitVec n) : (bitsOf x).length = n := by simp [bitsOf]

theorem gatherBytes_short {bits : List Bool} (h : bits.length < 8) : gatherBytes bits = [] := by
  match bits, h with
  | [], _ | [_], _ | [_, _], _ | [_, _, _], _ | [_, _, _, _], _ | [_, _, _, _, _], _ | [_, _, _, _, _, _], _
  | [_, _, _, _, _, _, _], _ => rfl

theorem gatherBytes_cons (b : Byte) (rest : List Bool) : gatherBytes (bitsOf b ++ rest) = b :: gatherBytes rest := by
  have h := bitsOf_length b
  have hb := byteOfBits_bitsOf b
  generalize bitsOf b = l at h hb
  match l, h with
  | [b7, b6, b5, b4, b3, b2, b1, b0], _ => simp [gatherBytes, hb]

/-- Whole bytes are gathered as they were sent; an incomplete byte behind them is dropped (R152). -/
theorem gatherBytes_byteBits (bytes : List Byte) {rest : List Bool} (h : rest.length < 8) :
    gatherBytes (byteBits bytes ++ rest) = bytes := by
  induction bytes with
  | nil => simpa [byteBits] using gatherBytes_short h
  | cons b bs ih =>
    have e : byteBits (b :: bs) ++ rest = bitsOf b ++ (byteBits bs ++ rest) := by simp [byteBits]
    rw [e, gatherBytes_cons, ih]

/-! ## Record images (R166) -/

theorem bytes2_length (x : BitVec 16) : (bytes2 x).length = 2 := rfl

theorem bytes4_length (x : BitVec 32) : (bytes4 x).length = 4 := rfl

/-- Every record has its table's length. -/
theorem State.recordImage_length (s : State) (ref : RecordRef) :
    (s.recordImage ref).length = match ref with
      | .zone _ => 8 | .switch _ => 16 | .sensor _ => 6 | .binding _ => 8 | .marshal _ => 4 | .settings => 12
      | .handset _ => 23 | .car _ => 32 := by
  cases ref with
  | sensor n =>
    simp only [State.recordImage, Sensor.image]
    cases s.geo.sensors[n].kind <;> simp [SensorKind.image]
  | handset h =>
    simp only [State.recordImage]
    cases s.handsets.records[h] <;> simp [handsetImage, identBytes, bytes2_length, bytes4_length]
  | car c =>
    simp only [State.recordImage, State.carImage, State.pitHoldBytes]
    cases s.lane.pitHolds[c] <;> simp [timeBytes, bytes4_length]
  | _ =>
    simp [State.recordImage, Zone.image, Switch.image, Binding.image, MarshalEntry.image, Settings.image, identBytes,
      bytes2_length]

/-! ## Requests (Table 10-3) -/

/-- The payload of a well-formed request row fits its request: the code names a row of Table 10-3 with its lengths. -/
theorem requestOf_row {c : Instr} {p : PortId} {code : Byte} {payload : List Byte}
    (h : requestOf c = some (p, code, payload)) (hw : c.wellFormed = true) :
    payload.length ≤ 16 ∧ ∃ (name : RequestName) (least greatest : Nat),
      requestRow code = some (name, least, greatest) ∧ least ≤ payload.length ∧ payload.length ≤ greatest := by
  cases c <;> simp only [requestOf, Option.some.injEq, Prod.mk.injEq, reduceCtorEq] at h <;>
    obtain ⟨rfl, rfl, rfl⟩ := h
  case put values =>
    simp only [Instr.wellFormed, putLengthOk, Bool.and_eq_true, decide_eq_true_eq] at hw
    exact ⟨hw.2, .put, 1, 16, rfl, hw.1, hw.2⟩
  all_goals exact ⟨by simp [bytes2], _, _, _, rfl, by simp [bytes2], by simp [bytes2]⟩

end Sys2Proof.Machine
end

