-- ==== Sys2Proof/Laws/Identities.lean ====
section
/-! SUPPORT. Searches by identity, and what a change of a binding or a handset record does. -/

namespace Sys2Proof.Machine

/-! ## Searches (R22, R57, R61) -/

theorem State.handsetOf_eq_none {s : State} {i : Ident} :
    s.handsetOf i = none ↔ ∀ (h : HandsetId) (r : Handset), s.handsets.records[h] = some r → r.identity ≠ i := by
  unfold State.handsetOf
  rw [firstIdx_eq_none]
  refine forall_congr' fun h => ?_
  cases e : s.handsets.records[h] <;> simp

theorem State.handsetOf_spec {s : State} {i : Ident} {h : HandsetId} (e : s.handsetOf i = some h) :
    ∃ r : Handset, s.handsets.records[h] = some r ∧ r.identity = i := by
  have := (firstIdx_eq_some.1 e).1
  obtain ⟨r, hr, hi⟩ := Option.any_eq_true _ _ |>.1 this
  exact ⟨r, hr, by simpa using hi⟩

theorem State.carOf_eq_none {s : State} {i : Ident} :
    s.carOf i = none ↔ ∀ (c : CarId) (a : Held), s.binding.bindings[c].held = some a → a.identity ≠ i := by
  unfold State.carOf
  rw [firstIdx_eq_none]
  refine forall_congr' fun c => ?_
  cases e : s.binding.bindings[c].held <;> simp

theorem State.carOf_spec {s : State} {i : Ident} {c : CarId} (e : s.carOf i = some c) :
    ∃ a : Held, s.binding.bindings[c].held = some a ∧ a.identity = i := by
  have := (firstIdx_eq_some.1 e).1
  obtain ⟨a, ha, hi⟩ := Option.any_eq_true _ _ |>.1 this
  exact ⟨a, ha, by simpa using hi⟩

theorem State.marshalOf_eq_none {s : State} {i : Ident} :
    s.marshalOf i = none ↔ ∀ m : MarshalId, s.binding.marshals[m].identity ≠ some i := by
  unfold State.marshalOf
  rw [firstIdx_eq_none]
  exact forall_congr' fun m => beq_eq_false_iff_ne

theorem State.marshalOf_spec {s : State} {i : Ident} {m : MarshalId} (e : s.marshalOf i = some m) :
    s.binding.marshals[m].identity = some i := by
  have h := (firstIdx_eq_some.1 e).1
  exact eq_of_beq h

/-- With identities unique, the record that holds an identity is the one found. -/
theorem State.handsetOf_of_unique {s : State} (hu : s.identitiesOk) {h : HandsetId} {r : Handset}
    (e : s.handsets.records[h] = some r) : s.handsetOf r.identity = some h := by
  cases f : s.handsetOf r.identity with
  | none => exact absurd rfl (State.handsetOf_eq_none.1 f h r e)
  | some k =>
    obtain ⟨q, hq, hi⟩ := State.handsetOf_spec f
    rw [hu.2.2.2.1 k h q r hq e hi]

theorem State.carOf_of_unique {s : State} (hu : s.identitiesOk) {c : CarId} {a : Held}
    (e : s.binding.bindings[c].held = some a) : s.carOf a.identity = some c := by
  cases f : s.carOf a.identity with
  | none => exact absurd rfl (State.carOf_eq_none.1 f c a e)
  | some k =>
    obtain ⟨b, hb, hi⟩ := State.carOf_spec f
    rw [hu.1 k c b a hb e hi]

theorem State.heldByOther_iff {s : State} {c : CarId} {i : Ident} :
    s.heldByOther c i = true ↔ ∃ (k : CarId) (a : Held), k ≠ c ∧ s.binding.bindings[k].held = some a ∧ a.identity = i := by
  simp only [State.heldByOther, List.any_eq_true, List.mem_finRange, true_and, Bool.and_eq_true, bne_iff_ne, ne_eq,
    Option.any_eq_true, beq_iff_eq]
  exact ⟨fun ⟨k, hk, a, ha, hi⟩ => ⟨k, a, hk, ha, hi⟩, fun ⟨k, a, hk, ha, hi⟩ => ⟨k, hk, a, ha, hi⟩⟩

theorem State.listedElsewhere_iff {s : State} {m : MarshalId} {i : Ident} :
    s.listedElsewhere m i = true ↔ ∃ k : MarshalId, k ≠ m ∧ s.binding.marshals[k].identity = some i := by
  simp only [State.listedElsewhere, List.any_eq_true, List.mem_finRange, true_and, Bool.and_eq_true, bne_iff_ne, ne_eq,
    beq_iff_eq]

/-! ## Handset records (R20, R33, R45, R61) -/

theorem State.modHandset_records (s : State) (h k : HandsetId) (f : Handset → Handset) :
    (s.modHandset h f).handsets.records[k] =
      if k = h then (s.handsets.records[k]).map f else s.handsets.records[k] := modAt_get s.handsets.records h k _

theorem State.freeIfForsaken_cases (s : State) (h : HandsetId) :
    (∃ r : Handset, s.handsets.records[h] = some r ∧ r.link = .lost ∧ r.boundCar = none ∧ r.marshal = false ∧
      s.freeIfForsaken h = s.freeHandset h) ∨
    ((∀ r : Handset, s.handsets.records[h] = some r → ¬ (r.link = .lost ∧ r.boundCar = none ∧ r.marshal = false)) ∧
      s.freeIfForsaken h = s) := by
  unfold State.freeIfForsaken
  cases e : s.handsets.records[h] with
  | none => exact .inr ⟨by simp, by simp⟩
  | some r =>
    by_cases hr : r.link = .lost ∧ r.boundCar = none ∧ r.marshal = false
    · exact .inl ⟨r, rfl, hr.1, hr.2.1, hr.2.2, by simp [hr.1, hr.2.1, hr.2.2]⟩
    · refine .inr ⟨fun q hq => ?_, if_neg ?_⟩
      · cases Option.some.inj hq; exact hr
      · simpa [and_assoc] using hr

@[simp] theorem State.freeIfForsaken_fields (s : State) (h : HandsetId) :
    (s.freeIfForsaken h).seq = s.seq ∧ (s.freeIfForsaken h).geo = s.geo ∧ (s.freeIfForsaken h).binding = s.binding ∧
    (s.freeIfForsaken h).tracker = s.tracker ∧ (s.freeIfForsaken h).lane = s.lane ∧
    (s.freeIfForsaken h).course = s.course ∧ (s.freeIfForsaken h).store = s.store ∧
    (s.freeIfForsaken h).ports = s.ports ∧ (s.freeIfForsaken h).rcs = s.rcs ∧
    (s.freeIfForsaken h).freeCount = s.freeCount ∧ (s.freeIfForsaken h).pending = s.pending := by
  rcases s.freeIfForsaken_cases h with ⟨r, -, -, -, -, e⟩ | ⟨-, e⟩ <;> rw [e] <;> simp

@[simp] theorem State.unbindHandset_fields (s : State) (i : Ident) :
    (s.unbindHandset i).seq = s.seq ∧ (s.unbindHandset i).geo = s.geo ∧ (s.unbindHandset i).binding = s.binding ∧
    (s.unbindHandset i).tracker = s.tracker ∧ (s.unbindHandset i).lane = s.lane ∧
    (s.unbindHandset i).course = s.course ∧ (s.unbindHandset i).store = s.store ∧
    (s.unbindHandset i).ports = s.ports ∧ (s.unbindHandset i).rcs = s.rcs ∧
    (s.unbindHandset i).freeCount = s.freeCount ∧ (s.unbindHandset i).pending = s.pending := by
  unfold State.unbindHandset
  split <;> simp

@[simp] theorem State.bindHandset_fields (s : State) (i : Ident) (c : CarId) :
    (s.bindHandset i c).seq = s.seq ∧ (s.bindHandset i c).geo = s.geo ∧ (s.bindHandset i c).binding = s.binding ∧
    (s.bindHandset i c).tracker = s.tracker ∧ (s.bindHandset i c).lane = s.lane ∧
    (s.bindHandset i c).course = s.course ∧ (s.bindHandset i c).store = s.store ∧
    (s.bindHandset i c).ports = s.ports ∧ (s.bindHandset i c).rcs = s.rcs ∧
    (s.bindHandset i c).freeCount = s.freeCount ∧ (s.bindHandset i c).pending = s.pending := by
  unfold State.bindHandset
  split <;> simp

/-! ## Changes of a binding record (R41, R42, R45) -/

theorem State.changeBinding_bindings (s : State) (c k : CarId) (f : Binding → Binding) :
    (s.changeBinding c f).binding.bindings[k] =
      if k = c then { f s.binding.bindings[k] with revision := s.binding.bindings[k].revision + 1, mark := .dirty }
      else s.binding.bindings[k] := modAt_get s.binding.bindings c k _

theorem State.changeBinding_ports (s : State) (c : CarId) (f : Binding → Binding) :
    (s.changeBinding c f).ports =
      (s.offerRaceControl (.binding c (f s.binding.bindings[c]).held (s.binding.bindings[c].revision + 1))).ports := by
  have e := modAt_get_self s.binding.bindings c fun b => { f b with revision := b.revision + 1, mark := .dirty }
  unfold State.changeBinding
  simp only
  rw [e]
  rfl

/-- A change that keeps the identity touches no neighbour. -/
theorem State.carryIdentity_same (s : State) (c : CarId) (i : Option Ident) : s.carryIdentity c i i = s := by
  unfold State.carryIdentity
  exact if_pos rfl

@[simp] theorem State.carryIdentity_fields (s : State) (c : CarId) (old new : Option Ident) :
    (s.carryIdentity c old new).seq = s.seq ∧ (s.carryIdentity c old new).geo = s.geo ∧
    (s.carryIdentity c old new).binding = s.binding ∧ (s.carryIdentity c old new).tracker = s.tracker ∧
    (s.carryIdentity c old new).course = s.course ∧ (s.carryIdentity c old new).store = s.store ∧
    (s.carryIdentity c old new).ports = s.ports ∧ (s.carryIdentity c old new).rcs = s.rcs ∧
    (s.carryIdentity c old new).freeCount = s.freeCount ∧ (s.carryIdentity c old new).pending = s.pending := by
  unfold State.carryIdentity
  split
  · simp
  · cases old <;> cases new <;> simp

/-- A change of identity clears the car's intent, and no other. -/
theorem State.carryIdentity_lane {old new : Option Ident} (s : State) (c : CarId) (h : old ≠ new) :
    (s.carryIdentity c old new).lane = { s.lane with intents := modAt s.lane.intents c fun _ => none } := by
  unfold State.carryIdentity
  rw [if_neg h]
  cases old <;> cases new <;> simp

/-- A rebinding is one change of the record, with the identity as given, carried to its neighbours. -/
theorem State.rebind_bindings (s : State) (c k : CarId) (held : Option Held) (f : Binding → Binding) :
    (s.rebind c held f).binding.bindings[k] =
      if k = c then
        { f s.binding.bindings[k] with
          held := held, revision := s.binding.bindings[k].revision + 1, mark := .dirty }
      else s.binding.bindings[k] := by
  unfold State.rebind
  rw [State.changeBinding_bindings]
  simp

@[simp] theorem State.rebind_fields (s : State) (c : CarId) (held : Option Held) (f : Binding → Binding) :
    (s.rebind c held f).seq = s.seq ∧ (s.rebind c held f).geo = s.geo ∧ (s.rebind c held f).tracker = s.tracker ∧
    (s.rebind c held f).course = s.course ∧ (s.rebind c held f).store = s.store ∧ (s.rebind c held f).rcs = s.rcs ∧
    (s.rebind c held f).binding.marshals = s.binding.marshals ∧
    (s.rebind c held f).binding.window = s.binding.window ∧ (s.rebind c held f).binding.offers = s.binding.offers ∧
    (s.rebind c held f).freeCount = s.freeCount ∧ (s.rebind c held f).pending = s.pending := by
  simp [State.rebind]

theorem State.moveBinding_cases (s : State) (c : CarId) (source : HeldState → Bool) (target : HeldState) :
    (∃ a : Held, s.binding.bindings[c].held = some a ∧ source a.state = true ∧
      s.moveBinding c source target = s.changeBinding c fun b => { b with held := some { a with state := target } }) ∨
    ((∀ a : Held, s.binding.bindings[c].held = some a → source a.state = false) ∧ s.moveBinding c source target = s) := by
  unfold State.moveBinding
  cases e : s.binding.bindings[c].held with
  | none => exact .inr ⟨by simp, rfl⟩
  | some a =>
    by_cases h : source a.state = true
    · exact .inl ⟨a, rfl, h, if_pos h⟩
    · refine .inr ⟨fun b hb => ?_, if_neg h⟩
      cases Option.some.inj hb; simpa using h

/-! ## The move into LIVE (R34, R35, R43) -/

/-- A change of a binding record in the statements' words. -/
theorem State.changeBinding_eq (s : State) (c : CarId) (f : Binding → Binding) :
    s.changeBinding c f =
      (let b := s.binding.bindings[c]
       (s.putBinding c { f b with revision := b.revision + 1, mark := .dirty }).offerRaceControl
         (.binding c (f b).held (b.revision + 1))) := by
  have e := modAt_get_self s.binding.bindings c fun b => { f b with revision := b.revision + 1, mark := .dirty }
  unfold State.changeBinding
  simp only
  rw [e]
  rfl

/-- What a record's move into LIVE hands on is what the statements say. -/
theorem State.handLive_eq (s : State) (p : PortId) (r : Handset) (hl : r.link = .live) (hp : r.heardStation = p) :
    s.handLive r = s.wentLive p r := by
  unfold State.handLive State.wentLive State.announceLink State.holderOf State.moveBinding
  rw [hl, hp]
  cases hc : r.boundCar with
  | none =>
    cases hm : r.marshal <;> cases hi : s.marshalOf r.identity <;> simp [hi]
  | some c =>
    simp only [Option.elim_some]
    cases hb : s.binding.bindings[c].held with
    | none => rfl
    | some a =>
      by_cases ha : a.state = .bound
      · simp [ha]
      · simp [ha, State.changeBinding_eq]

end Sys2Proof.Machine
end

