-- ==== Sys2Proof/Laws/Moves.lean ====
section
/-! SUPPORT. What the moves of a car, the ends of a passage, the fault reports and the hand-ons of a crossing do. -/

namespace Sys2Proof.Machine

/-! ## Moves of a car (R65, R70, R75, R77, R78) -/

theorem State.moveCar_cars (s : State) (c k : CarId) (z : ZoneId) (t : Time) (way : Way) :
    (s.moveCar c z t way).tracker.cars[k] =
      if k = c then { s.tracker.cars[k] with
        placed := some (Placed.mk z t way false), stallDeadline := s.stallDeadline z t }
      else s.tracker.cars[k] := modAt_get s.tracker.cars c k _

theorem State.moveCar_lists_placed {s : State} {c : CarId} {pl : Placed} (h : s.tracker.cars[c].placed = some pl)
    (z y : ZoneId) (t : Time) (way : Way) :
    (s.moveCar c z t way).tracker.lists[y] =
      (if y = pl.zone then s.tracker.lists[y].filter (·.car != c) else s.tracker.lists[y]) ++
        (if y = z then [Occupant.mk c t way] else []) := by
  simp only [State.moveCar, h, modAt_get]
  split <;> simp

theorem State.moveCar_lists_unplaced {s : State} {c : CarId} (h : s.tracker.cars[c].placed = none)
    (z y : ZoneId) (t : Time) (way : Way) :
    (s.moveCar c z t way).tracker.lists[y] = s.tracker.lists[y] ++ (if y = z then [Occupant.mk c t way] else []) := by
  simp only [State.moveCar, h, modAt_get]
  split <;> simp

/-- A car that no list but its zone's holds is filtered from every list alike (R65). -/
theorem State.occupancy_filter {s : State} (h : s.occupancyOk) {c : CarId} {y : ZoneId}
    (hy : ∀ pl : Placed, s.tracker.cars[c].placed = some pl → pl.zone ≠ y) :
    s.tracker.lists[y].filter (·.car != c) = s.tracker.lists[y] := by
  rw [List.filter_eq_self]
  intro o ho
  simp only [bne_iff_ne, ne_eq]
  rintro rfl
  obtain ⟨pl, hp, hz, -⟩ := h.1 y o ho
  exact hy pl hp hz

theorem State.moveCar_lists {s : State} (h : s.occupancyOk) (c : CarId) (z y : ZoneId) (t : Time) (way : Way) :
    (s.moveCar c z t way).tracker.lists[y] =
      s.tracker.lists[y].filter (·.car != c) ++ (if y = z then [Occupant.mk c t way] else []) := by
  cases hp : s.tracker.cars[c].placed with
  | none =>
    rw [State.moveCar_lists_unplaced hp, State.occupancy_filter h fun pl h' => by rw [hp] at h'; cases h']
  | some pl =>
    rw [State.moveCar_lists_placed hp]
    by_cases hy : y = pl.zone
    · rw [if_pos hy]
    · rw [if_neg hy, State.occupancy_filter h]
      rintro pl' hp' rfl
      rw [hp] at hp'
      exact hy (by rw [Option.some.inj hp'])

/-- A move keeps records and lists in step. -/
theorem State.moveCar_occupancyOk {s : State} (h : s.occupancyOk) (c : CarId) (z : ZoneId) (t : Time) (way : Way) :
    (s.moveCar c z t way).occupancyOk := by
  refine ⟨fun y o ho => ?_, fun y => ?_, fun k pl hk => ?_⟩
  · rw [State.moveCar_lists h, List.mem_append] at ho
    rcases ho with ho | ho
    · obtain ⟨ho, hc⟩ := List.mem_filter.1 ho
      rw [State.moveCar_cars, if_neg (by simpa using hc)]
      exact h.1 y o ho
    · by_cases hy : y = z
      · rw [if_pos hy] at ho
        obtain rfl := List.mem_singleton.1 ho
        rw [State.moveCar_cars, if_pos rfl]
        exact ⟨_, rfl, hy.symm, rfl, rfl⟩
      · simp [hy] at ho
  · rw [State.moveCar_lists h, List.map_append, List.nodup_append]
    refine ⟨((h.2.1 y).sublist (List.Sublist.map _ (List.filter_sublist))), ?_, ?_⟩
    · by_cases hy : y = z <;> simp [hy]
    · intro a ha b hb hab
      by_cases hy : y = z
      · simp [hy] at hb
        obtain ⟨o, ho, rfl⟩ := List.mem_map.1 ha
        have := (List.mem_filter.1 ho).2
        simp [hab, hb] at this
      · simp [hy] at hb
  · rw [State.moveCar_cars] at hk
    by_cases hc : k = c
    · rw [if_pos hc] at hk
      cases Option.some.inj hk
      exact ⟨Occupant.mk c t way, by rw [State.moveCar_lists h]; simp, hc.symm⟩
    · rw [if_neg hc] at hk
      obtain ⟨o, ho, hoc⟩ := h.2.2 k pl hk
      refine ⟨o, ?_, hoc⟩
      rw [State.moveCar_lists h]
      exact List.mem_append_left _ (List.mem_filter.2 ⟨ho, by simp [hoc, hc]⟩)

theorem State.placeCrossing_eq (s : State) (n : SensorId) (z : ZoneId) (c : CarId) (t : Time) :
    s.placeCrossing n z c t =
      (s.moveCar c z t .sensor).putCar c { (s.moveCar c z t .sensor).tracker.cars[c] with
        lastSensor := some n, lastStamp := t } := by
  unfold State.placeCrossing State.putCar
  simp only
  rw [modAt_congr (s.moveCar c z t .sensor).tracker.cars c
    (f := fun r => { r with lastSensor := some n, lastStamp := t })
    (g := fun _ => { (s.moveCar c z t .sensor).tracker.cars[c] with lastSensor := some n, lastStamp := t }) rfl]

/-- The undo is the move back, or nothing (R78). -/
theorem State.undoGrant_cases (s : State) (w : SwitchId) (cl : Claim) :
    s.undoGrant w cl = s.moveCar cl.car cl.priorZone cl.priorStamp .sensor ∨ s.undoGrant w cl = s := by
  unfold State.undoGrant
  split
  · split
    · exact .inl rfl
    · exact .inr rfl
  · exact .inr rfl

theorem State.undoGrant_shown {s : State} {w : SwitchId} {cl : Claim} {pl : Placed}
    (h : s.tracker.cars[cl.car].placed = some pl) (hz : pl.zone = s.geo.switches[w].targetZone) (hw : pl.way = .switch)
    (ht : pl.entryStamp = cl.grantStamp) :
    s.undoGrant w cl = s.moveCar cl.car cl.priorZone cl.priorStamp .sensor := by
  unfold State.undoGrant
  rw [h]
  exact if_pos ⟨hz, hw, ht⟩

@[simp] theorem State.undoGrant_fields (s : State) (w : SwitchId) (cl : Claim) :
    (s.undoGrant w cl).seq = s.seq ∧ (s.undoGrant w cl).geo = s.geo ∧ (s.undoGrant w cl).handsets = s.handsets ∧
    (s.undoGrant w cl).binding = s.binding ∧ (s.undoGrant w cl).lane = s.lane ∧ (s.undoGrant w cl).course = s.course ∧
    (s.undoGrant w cl).store = s.store ∧ (s.undoGrant w cl).ports = s.ports ∧ (s.undoGrant w cl).rcs = s.rcs ∧
    (s.undoGrant w cl).freeCount = s.freeCount ∧ (s.undoGrant w cl).pending = s.pending := by
  rcases s.undoGrant_cases w cl with h | h <;> rw [h] <;> simp

theorem State.undoGrant_occupancyOk {s : State} (h : s.occupancyOk) (w : SwitchId) (cl : Claim) :
    (s.undoGrant w cl).occupancyOk := by
  rcases s.undoGrant_cases w cl with e | e <;> rw [e]
  · exact State.moveCar_occupancyOk h ..
  · exact h

/-- Records and lists are in step whenever they are another state's that is. -/
theorem State.occupancyOk_of_tracker {s t : State} (h : s.occupancyOk) (e : t.tracker = s.tracker) : t.occupancyOk := by
  unfold State.occupancyOk at *
  rw [e]
  exact h

/-! ## Faults and the course (R105, R122) -/

theorem State.faultReport_cases (s : State) (w : SwitchId) :
    (s.course.settings.autoCaution = true ∧ s.course.course = .green ∧
      s.faultReport w = s.changeCourse .caution s.course.lampCount s.course.nextLamp (.auto w)) ∨
    (¬ (s.course.settings.autoCaution = true ∧ s.course.course = .green) ∧ s.faultReport w = s) := by
  unfold State.faultReport State.toCaution
  by_cases h : s.course.settings.autoCaution = true ∧ s.course.course = .green
  · exact .inl ⟨h.1, h.2, by simp [h.1, h.2]⟩
  · refine .inr ⟨h, if_neg ?_⟩
    simpa using h

@[simp] theorem State.faultReport_fields (s : State) (w : SwitchId) :
    (s.faultReport w).seq = s.seq ∧ (s.faultReport w).geo = s.geo ∧ (s.faultReport w).handsets = s.handsets ∧
    (s.faultReport w).binding = s.binding ∧ (s.faultReport w).tracker = s.tracker ∧
    (s.faultReport w).lane = s.lane ∧ (s.faultReport w).store = s.store ∧ (s.faultReport w).rcs = s.rcs ∧
    (s.faultReport w).freeCount = s.freeCount ∧ (s.faultReport w).pending = s.pending := by
  rcases s.faultReport_cases w with ⟨-, -, h⟩ | ⟨-, h⟩ <;> rw [h] <;> simp

theorem State.announceFault_cases (s : State) (w : SwitchId) (cause : FaultCause) (left : RunState) :
    let told := s.offerWithRaceControl (s.switchOwner w) (.switchFault w cause left (s.switch w).position)
    s.announceFault w cause left = told ∨ s.announceFault w cause left = told.faultReport w := by
  unfold State.announceFault
  simp only
  split
  · exact .inl rfl
  · exact .inr rfl

@[simp] theorem State.announceFault_fields (s : State) (w : SwitchId) (cause : FaultCause) (left : RunState) :
    (s.announceFault w cause left).seq = s.seq ∧ (s.announceFault w cause left).geo = s.geo ∧
    (s.announceFault w cause left).handsets = s.handsets ∧ (s.announceFault w cause left).binding = s.binding ∧
    (s.announceFault w cause left).tracker = s.tracker ∧ (s.announceFault w cause left).lane = s.lane ∧
    (s.announceFault w cause left).store = s.store ∧ (s.announceFault w cause left).rcs = s.rcs ∧
    (s.announceFault w cause left).freeCount = s.freeCount ∧
    (s.announceFault w cause left).pending = s.pending := by
  rcases s.announceFault_cases w cause left with h | h <;> rw [h] <;> simp

/-! ## The ends of a passage (R97, R103) -/

/-- A passage that ends in PENDING touches the tracker, the lane and the queues alone. -/
@[simp] theorem State.closePending_fields (s : State) (w : SwitchId) (cl : Claim) (m : SwitchMode) (ps : Position)
    (o : FinalOutcome) :
    (s.closePending w cl m ps o).seq = s.seq ∧ (s.closePending w cl m ps o).geo = s.geo ∧
    (s.closePending w cl m ps o).handsets = s.handsets ∧ (s.closePending w cl m ps o).binding = s.binding ∧
    (s.closePending w cl m ps o).lane = (s.restSwitch w m ps).lane ∧
    (s.closePending w cl m ps o).course = s.course ∧ (s.closePending w cl m ps o).store = s.store ∧
    (s.closePending w cl m ps o).rcs = s.rcs ∧ (s.closePending w cl m ps o).freeCount = s.freeCount ∧
    (s.closePending w cl m ps o).pending = s.pending := by
  simp [State.closePending]

theorem State.closePending_occupancyOk {s : State} (h : s.occupancyOk) (w : SwitchId) (cl : Claim) (m : SwitchMode)
    (ps : Position) (o : FinalOutcome) : (s.closePending w cl m ps o).occupancyOk :=
  State.occupancyOk_of_tracker
    (State.undoGrant_occupancyOk (State.occupancyOk_of_tracker (t := s.restSwitch w m ps) h (by simp)) w cl)
    (by simp [State.closePending])

theorem State.restoreSwitch_queued {s : State} {w : SwitchId} (cl : Claim)
    (h : (s.ports[s.geo.switches[w].owner]).queue.length < 32) :
    s.restoreSwitch w cl =
      ((s.offerTo (s.switchOwner w) (.restoreSwitch w)).setSwitch w
        (.restoring (addMs s.now s.geo.switches[w].actuationTime.toNat)) (s.switch w).position).announceClosed w cl
          (.recorded cl.outcome) := by
  have : ¬ s.queueFull (s.switchOwner w) = true := by
    intro hf
    have := of_decide_eq_true hf
    exact absurd h (by simpa [State.switchOwner] using this)
  unfold State.restoreSwitch
  rw [if_neg this]

theorem State.restoreSwitch_full {s : State} {w : SwitchId} (cl : Claim)
    (h : 32 ≤ (s.ports[s.geo.switches[w].owner]).queue.length) :
    s.restoreSwitch w cl =
      (s.closeSet w cl .faulted .thrown).announceFault w .restoreQueue (s.switch w).mode.runState := by
  have : s.queueFull (s.switchOwner w) = true := decide_eq_true h
  unfold State.restoreSwitch
  rw [if_pos this]

@[simp] theorem State.restoreSwitch_fields (s : State) (w : SwitchId) (cl : Claim) :
    (s.restoreSwitch w cl).seq = s.seq ∧ (s.restoreSwitch w cl).geo = s.geo ∧
    (s.restoreSwitch w cl).handsets = s.handsets ∧ (s.restoreSwitch w cl).binding = s.binding ∧
    (s.restoreSwitch w cl).tracker = s.tracker ∧ (s.restoreSwitch w cl).store = s.store ∧
    (s.restoreSwitch w cl).rcs = s.rcs ∧ (s.restoreSwitch w cl).freeCount = s.freeCount ∧
    (s.restoreSwitch w cl).pending = s.pending := by
  unfold State.restoreSwitch
  split <;> simp

/-! ## Grants (R93) -/

/-- A grant touches the tracker, the lane and the queues alone. -/
@[simp] theorem State.grant_fields (s : State) (c : CarId) (w : SwitchId) :
    (s.grant c w).seq = s.seq ∧ (s.grant c w).geo = s.geo ∧ (s.grant c w).handsets = s.handsets ∧
    (s.grant c w).binding = s.binding ∧ (s.grant c w).course = s.course ∧ (s.grant c w).store = s.store ∧
    (s.grant c w).rcs = s.rcs ∧ (s.grant c w).freeCount = s.freeCount ∧ (s.grant c w).pending = s.pending := by
  unfold State.grant
  split
  · simp
  · simp only
    split <;> simp

theorem State.grant_tracker {s : State} {c : CarId} {pl : Placed} (h : s.tracker.cars[c].placed = some pl)
    (w : SwitchId) :
    (s.grant c w).tracker = (s.moveCar c s.geo.switches[w].targetZone s.now .switch).tracker := by
  unfold State.grant
  rw [h]
  simp only
  split <;> simp

theorem State.grant_occupancyOk {s : State} (h : s.occupancyOk) (c : CarId) (w : SwitchId) :
    (s.grant c w).occupancyOk := by
  cases hp : s.tracker.cars[c].placed with
  | none =>
    have : s.grant c w = s := by unfold State.grant; rw [hp]
    rw [this]; exact h
  | some pl =>
    exact State.occupancyOk_of_tracker (State.moveCar_occupancyOk h c s.geo.switches[w].targetZone s.now .switch)
      (State.grant_tracker hp w)

/-! ## What a placed crossing hands on (R71, R72, R96, R107, R108) -/

@[simp] theorem State.reconcileAt_fields (s : State) (c : CarId) (n : SensorId) (lane : Byte) (w : SwitchId) :
    (State.reconcileAt c n lane s w).seq = s.seq ∧ (State.reconcileAt c n lane s w).geo = s.geo ∧
    (State.reconcileAt c n lane s w).handsets = s.handsets ∧ (State.reconcileAt c n lane s w).binding = s.binding ∧
    (State.reconcileAt c n lane s w).tracker = s.tracker ∧ (State.reconcileAt c n lane s w).course = s.course ∧
    (State.reconcileAt c n lane s w).store = s.store ∧ (State.reconcileAt c n lane s w).rcs = s.rcs ∧
    (State.reconcileAt c n lane s w).freeCount = s.freeCount ∧ (State.reconcileAt c n lane s w).pending = s.pending := by
  unfold State.reconcileAt
  cases (s.switch w).mode.claim with
  | none => simp
  | some cl =>
    by_cases h : cl.car = c ∧ cl.outcome = .opened
    · cases s.geo.zones[s.geo.switches[w].targetZone].lane == lane <;> simp [h]
    · simp [h]

@[simp] theorem State.reconcile_fields (s : State) (c : CarId) (n : SensorId) (lane : Byte) :
    (s.reconcile c n lane).seq = s.seq ∧ (s.reconcile c n lane).geo = s.geo ∧
    (s.reconcile c n lane).handsets = s.handsets ∧ (s.reconcile c n lane).binding = s.binding ∧
    (s.reconcile c n lane).tracker = s.tracker ∧ (s.reconcile c n lane).course = s.course ∧
    (s.reconcile c n lane).store = s.store ∧ (s.reconcile c n lane).rcs = s.rcs ∧
    (s.reconcile c n lane).freeCount = s.freeCount ∧ (s.reconcile c n lane).pending = s.pending := by
  unfold State.reconcile
  induction List.finRange 32 generalizing s with
  | nil => simp
  | cons w ws ih => simpa using ih (State.reconcileAt c n lane s w)

@[simp] theorem State.endCapsByCrossing_fields (s : State) (c : CarId) :
    (s.endCapsByCrossing c).seq = s.seq ∧ (s.endCapsByCrossing c).geo = s.geo ∧
    (s.endCapsByCrossing c).handsets = s.handsets ∧ (s.endCapsByCrossing c).binding = s.binding ∧
    (s.endCapsByCrossing c).tracker = s.tracker ∧ (s.endCapsByCrossing c).course = s.course ∧
    (s.endCapsByCrossing c).store = s.store ∧ (s.endCapsByCrossing c).rcs = s.rcs ∧
    (s.endCapsByCrossing c).freeCount = s.freeCount ∧ (s.endCapsByCrossing c).pending = s.pending ∧
    (s.endCapsByCrossing c).ports = s.ports := by
  simp only [State.endCapsByCrossing]
  generalize s.lane.pitHolds[c] = held
  cases held <;> simp

/-- Handing on leaves every block but the Lane Arbiter and the queues. -/
@[simp] theorem State.handOver_fields (s : State) (n : SensorId) (z : ZoneId) (c : CarId) (stamp : Time) :
    (s.handOver n z c stamp).seq = s.seq ∧ (s.handOver n z c stamp).geo = s.geo ∧
    (s.handOver n z c stamp).handsets = s.handsets ∧ (s.handOver n z c stamp).binding = s.binding ∧
    (s.handOver n z c stamp).tracker = s.tracker ∧ (s.handOver n z c stamp).course = s.course ∧
    (s.handOver n z c stamp).store = s.store ∧ (s.handOver n z c stamp).rcs = s.rcs ∧
    (s.handOver n z c stamp).freeCount = s.freeCount ∧ (s.handOver n z c stamp).pending = s.pending := by
  unfold State.handOver
  generalize hu : (s.reconcile c n s.geo.zones[z].lane).endCapsByCrossing c = u
  have h1 : u.seq = s.seq ∧ u.geo = s.geo ∧ u.handsets = s.handsets ∧ u.binding = s.binding ∧
      u.tracker = s.tracker ∧ u.course = s.course ∧ u.store = s.store ∧ u.rcs = s.rcs ∧ u.freeCount = s.freeCount ∧
      u.pending = s.pending := by
    rw [← hu]
    simp
  have h2 : (u.conflictTest z c stamp).seq = u.seq ∧ (u.conflictTest z c stamp).geo = u.geo ∧
      (u.conflictTest z c stamp).handsets = u.handsets ∧ (u.conflictTest z c stamp).binding = u.binding ∧
      (u.conflictTest z c stamp).tracker = u.tracker ∧ (u.conflictTest z c stamp).course = u.course ∧
      (u.conflictTest z c stamp).store = u.store ∧ (u.conflictTest z c stamp).rcs = u.rcs ∧
      (u.conflictTest z c stamp).freeCount = u.freeCount ∧ (u.conflictTest z c stamp).pending = u.pending := by
    unfold State.conflictTest
    cases u.conflictIn z c stamp <;> simp
  unfold State.jumpTest
  split <;> simp [h1, h2]

end Sys2Proof.Machine
end

