-- ==== Sys2Proof/Laws/PerInstr.lean ====
section
/-! SUPPORT. The family WellFormed, one lemma per command: a well-formed request row fits its row of Table 10-3. -/

namespace Sys2Proof.Laws.WellFormed

/-- The frame of a well-formed request row carries a code of Table 10-3 and a payload of that row's lengths, at most 16
bytes. A command that is no request has no frame. -/
def Statement (i : Instr) : Prop :=
  i.wellFormed = true → ∀ (p : PortId) (code : Byte) (payload : List Byte),
    Machine.requestOf i = some (p, code, payload) →
    payload.length ≤ 16 ∧ ∃ (name : Machine.RequestName) (least greatest : Nat),
      Machine.requestRow code = some (name, least, greatest) ∧ least ≤ payload.length ∧ payload.length ≤ greatest

theorem hardReset (rcs : BitVec 4) : Statement (.hardReset rcs) :=
  fun hw _ _ _ h => Machine.requestOf_row h hw

theorem trackTimeTick : Statement .trackTimeTick :=
  fun hw _ _ _ h => Machine.requestOf_row h hw

theorem restore : Statement .restore :=
  fun hw _ _ _ h => Machine.requestOf_row h hw

theorem restoreEnd : Statement .restoreEnd :=
  fun hw _ _ _ h => Machine.requestOf_row h hw

theorem selnFall (p : PortId) : Statement (.selnFall p) :=
  fun hw _ _ _ h => Machine.requestOf_row h hw

theorem requestFrame (p : PortId) (sdi : List Bool) : Statement (.requestFrame p sdi) :=
  fun hw _ _ _ h => Machine.requestOf_row h hw

theorem poll (p : PortId) : Statement (.poll p) :=
  fun hw _ _ _ h => Machine.requestOf_row h hw

theorem take (p : PortId) : Statement (.take p) :=
  fun hw _ _ _ h => Machine.requestOf_row h hw

theorem portStatus (p : PortId) : Statement (.portStatus p) :=
  fun hw _ _ _ h => Machine.requestOf_row h hw

theorem portSet (p : PortId) (attentionLevel shedLevel : Byte) : Statement (.portSet p attentionLevel shedLevel) :=
  fun hw _ _ _ h => Machine.requestOf_row h hw

theorem portReset (p : PortId) : Statement (.portReset p) :=
  fun hw _ _ _ h => Machine.requestOf_row h hw

theorem select (p : PortId) (table index : Byte) : Statement (.select p table index) :=
  fun hw _ _ _ h => Machine.requestOf_row h hw

theorem fetch (p : PortId) : Statement (.fetch p) :=
  fun hw _ _ _ h => Machine.requestOf_row h hw

theorem put (p : PortId) (values : List Byte) : Statement (.put p values) :=
  fun hw _ _ _ h => Machine.requestOf_row h hw

theorem apply (p : PortId) : Statement (.apply p) :=
  fun hw _ _ _ h => Machine.requestOf_row h hw

theorem reportHandset (p : PortId) (identity : Ident) (count throttle code battery strength : Byte) : Statement (.reportHandset p identity count throttle code battery strength) :=
  fun hw _ _ _ h => Machine.requestOf_row h hw

theorem staleExpiry (h : HandsetId) : Statement (.staleExpiry h) :=
  fun hw _ _ _ h => Machine.requestOf_row h hw

theorem handsetLostExpiry (h : HandsetId) : Statement (.handsetLostExpiry h) :=
  fun hw _ _ _ h => Machine.requestOf_row h hw

theorem reportCrossing (p : PortId) (sensor car age : Byte) : Statement (.reportCrossing p sensor car age) :=
  fun hw _ _ _ h => Machine.requestOf_row h hw

theorem pitExitRecheck (w : SwitchId) : Statement (.pitExitRecheck w) :=
  fun hw _ _ _ h => Machine.requestOf_row h hw

theorem reportSwitchThrown (p : PortId) (switch position : Byte) : Statement (.reportSwitchThrown p switch position) :=
  fun hw _ _ _ h => Machine.requestOf_row h hw

theorem reportSwitchReturned (p : PortId) (switch position : Byte) : Statement (.reportSwitchReturned p switch position) :=
  fun hw _ _ _ h => Machine.requestOf_row h hw

theorem reportSwitchJammed (p : PortId) (switch position : Byte) : Statement (.reportSwitchJammed p switch position) :=
  fun hw _ _ _ h => Machine.requestOf_row h hw

theorem actuationDeadline (w : SwitchId) : Statement (.actuationDeadline w) :=
  fun hw _ _ _ h => Machine.requestOf_row h hw

theorem holdDeadline (w : SwitchId) : Statement (.holdDeadline w) :=
  fun hw _ _ _ h => Machine.requestOf_row h hw

theorem restoringActuationDeadline (w : SwitchId) : Statement (.restoringActuationDeadline w) :=
  fun hw _ _ _ h => Machine.requestOf_row h hw

theorem intentExpiry (c : CarId) : Statement (.intentExpiry c) :=
  fun hw _ _ _ h => Machine.requestOf_row h hw

theorem conflictCapEnd (c : CarId) : Statement (.conflictCapEnd c) :=
  fun hw _ _ _ h => Machine.requestOf_row h hw

theorem stall (c : CarId) : Statement (.stall c) :=
  fun hw _ _ _ h => Machine.requestOf_row h hw

theorem offerExpiry (c : CarId) : Statement (.offerExpiry c) :=
  fun hw _ _ _ h => Machine.requestOf_row h hw

theorem pairingWindowExpiry : Statement .pairingWindowExpiry :=
  fun hw _ _ _ h => Machine.requestOf_row h hw

theorem lampExpiry : Statement .lampExpiry :=
  fun hw _ _ _ h => Machine.requestOf_row h hw

theorem start (p : PortId) : Statement (.start p) :=
  fun hw _ _ _ h => Machine.requestOf_row h hw

theorem stop (p : PortId) : Statement (.stop p) :=
  fun hw _ _ _ h => Machine.requestOf_row h hw

theorem caution (p : PortId) : Statement (.caution p) :=
  fun hw _ _ _ h => Machine.requestOf_row h hw

theorem green (p : PortId) : Statement (.green p) :=
  fun hw _ _ _ h => Machine.requestOf_row h hw

theorem pitOpen (p : PortId) : Statement (.pitOpen p) :=
  fun hw _ _ _ h => Machine.requestOf_row h hw

theorem pitClose (p : PortId) : Statement (.pitClose p) :=
  fun hw _ _ _ h => Machine.requestOf_row h hw

theorem zoneLock (p : PortId) (zone lock : Byte) : Statement (.zoneLock p zone lock) :=
  fun hw _ _ _ h => Machine.requestOf_row h hw

theorem trackClear (p : PortId) : Statement (.trackClear p) :=
  fun hw _ _ _ h => Machine.requestOf_row h hw

theorem switchDisable (p : PortId) (switch : Byte) : Statement (.switchDisable p switch) :=
  fun hw _ _ _ h => Machine.requestOf_row h hw

theorem switchEnable (p : PortId) (switch : Byte) : Statement (.switchEnable p switch) :=
  fun hw _ _ _ h => Machine.requestOf_row h hw

theorem switchClear (p : PortId) (switch : Byte) : Statement (.switchClear p switch) :=
  fun hw _ _ _ h => Machine.requestOf_row h hw

theorem layoutRun (p : PortId) : Statement (.layoutRun p) :=
  fun hw _ _ _ h => Machine.requestOf_row h hw

theorem layoutEdit (p : PortId) : Statement (.layoutEdit p) :=
  fun hw _ _ _ h => Machine.requestOf_row h hw

theorem openPairing (p : PortId) (seconds : Byte) : Statement (.openPairing p seconds) :=
  fun hw _ _ _ h => Machine.requestOf_row h hw

theorem closePairing (p : PortId) : Statement (.closePairing p) :=
  fun hw _ _ _ h => Machine.requestOf_row h hw

theorem release (p : PortId) (car : Byte) : Statement (.release p car) :=
  fun hw _ _ _ h => Machine.requestOf_row h hw

theorem storeSave (p : PortId) (row : Byte) : Statement (.storeSave p row) :=
  fun hw _ _ _ h => Machine.requestOf_row h hw

theorem writerCommitStart : Statement .writerCommitStart :=
  fun hw _ _ _ h => Machine.requestOf_row h hw

theorem writerStepEnd : Statement .writerStepEnd :=
  fun hw _ _ _ h => Machine.requestOf_row h hw

theorem commitCompletion : Statement .commitCompletion :=
  fun hw _ _ _ h => Machine.requestOf_row h hw

theorem stweFall : Statement .stweFall :=
  fun hw _ _ _ h => Machine.requestOf_row h hw

theorem stweRise : Statement .stweRise :=
  fun hw _ _ _ h => Machine.requestOf_row h hw

theorem railFrameStart : Statement .railFrameStart :=
  fun hw _ _ _ h => Machine.requestOf_row h hw

theorem broadcastWord : Statement .broadcastWord :=
  fun hw _ _ _ h => Machine.requestOf_row h hw

theorem carWord (c : CarId) : Statement (.carWord c) :=
  fun hw _ _ _ h => Machine.requestOf_row h hw

theorem quietWindow : Statement .quietWindow :=
  fun hw _ _ _ h => Machine.requestOf_row h hw

theorem reportSwitchUnknownKind (p : PortId) (switch kind position : Byte) : Statement (.reportSwitchUnknownKind p switch kind position) :=
  fun hw _ _ _ h => Machine.requestOf_row h hw

end Sys2Proof.Laws.WellFormed
end

