-- ==== Sys2Proof/Tests/Slice0.lean ====
section
/-! SUPPORT. The model's own tests: ill-formed commands refused, each command on a small state, and for every statement with
hypotheses a state and operands that meet them. -/

namespace Sys2Proof.Tests

open Sys2Proof.Machine

-- A proof by the kernel's evaluation waits for every proof before it; one after the other, they need no thread each.
set_option Elab.async false

/-! ## Well-formedness -/

theorem test_put_of_no_byte_is_ill_formed : (Instr.put 0 []).wellFormed = false := by decide
theorem test_put_of_seventeen_bytes_is_ill_formed : (Instr.put 0 (List.replicate 17 0)).wellFormed = false := by decide
theorem test_put_bounds_are_well_formed :
    (Instr.put 0 [7]).wellFormed = true ∧ (Instr.put 0 (List.replicate 16 7)).wellFormed = true := by decide
theorem test_known_report_kind_is_ill_formed : (Instr.reportSwitchUnknownKind 0 0 2 0).wellFormed = false := by decide
theorem test_unknown_report_kind_is_well_formed : (Instr.reportSwitchUnknownKind 0 0 3 0).wellFormed = true := by decide

/-- The table gives no row any bits: no word spells a command, and none is put in the queue. -/
theorem test_no_word_spells_a_command (s : State) (nbits w : Nat) :
    decodeTableWord nbits w = none ∧ s.withFetchWord nbits w = s := ⟨rfl, rfl⟩

/-! ## Small states -/

/-- The state that an answered command leaves. -/
def after (o : Host.Outcome State Fault Refusal) : State :=
  match o with
  | .next s => s
  | .fault _ => State.reset
  | .refused _ => State.reset

/-- One command, and a run of a few. -/
def go (s : State) (c : Instr) : State := after (exec c s)

/-- The same state at another track time. -/
def at_ (s : State) (t : Time) : State := { s with seq := { s.seq with trackTime := t } }

/-- The start-up over, at a track time: requests are taken, frames run, port 0 is race control. -/
def ready (t : Time) : State :=
  { State.reset with seq :=
    { State.reset.seq with trackTime := t, starting := false, restored := true, running := true } }

/-- In RUN on a small layout, all of it port 0's: zones 0 and 1 on lane 0, zone 9 on lane 1, zone 16 in the pit; switch 0 a
CROSSOVER from 1 to 9, switch 3 the PIT_EXIT from 16 to 0; sensors 0 and 9 BOUNDARY, 1 and 17 ENTRY, 20 PAIRING. -/
def track (t : Time) : State :=
  let s := ready t
  let s := { s with geo := { s.geo with phase := .run } }
  let s := (((s.putZone 0 (Zone.mk true 0 2 250 4000 1)).putZone 1 (Zone.mk true 0 2 250 4000 1)).putZone 9
    (Zone.mk true 1 2 300 4000 1)).putZone 16 (Zone.mk true 4 4 250 0 1)
  let s := (s.putSwitchRecord 0 (Switch.mk true .crossover 0 .outward 1 9 none 400 80 1500 1)).putSwitchRecord 3
    (Switch.mk true .pitExit 0 .inward 16 0 none 600 50 1500 1)
  ((((s.putSensor 0 (Sensor.mk true (.boundary 0) 0 1)).putSensor 1 (Sensor.mk true (.entry 1 0) 0 1)).putSensor 9
    (Sensor.mk true (.boundary 9) 0 1)).putSensor 17 (Sensor.mk true (.entry 16 3) 0 1)).putSensor 20
      (Sensor.mk true .pairing 0 1)

/-- The same in GREEN. -/
def green (t : Time) : State := (track t).putCourse .green 0 none

/-- A car set down in a zone by a crossing. -/
def place (s : State) (c : CarId) (z : ZoneId) (t : Time) : State := s.placeCrossing 0 z c t

/-- A binding of an identity to a car. -/
def bound (s : State) (c : CarId) (i : Ident) (st : HeldState) : State :=
  s.putBinding c (Binding.mk (some (Held.mk i .paired st)) 63 .allowed 0 .clean)

/-- A handset record in use, reported at a time, with the codes held and candidate. -/
def handset (i : Ident) (link : LinkState) (car : Option CarId) (marshal : Bool) (held cand : BitVec 4) (t : Time) :
    Handset :=
  Handset.mk i link 3 20 held cand 0 false 9 car marshal 0 0 t t

/-- In a frame, at a bit position, with 4 ms of the frame gone. -/
def onAir (s : State) (b : Fin 200) : State := { s with seq := { s.seq with bitCounter := b, nextFrame := s.now + 1 } }

/-- Port 0's reply, and the bodies of its queue. -/
def said (s : State) : Reply := (s.ports[(0 : PortId)]).reply
def told (s : State) : List NoticeBody := (s.ports[(0 : PortId)]).queue.map (·.body)

/-- A claim of car 5 granted at 1000 out of zone 1. -/
def claim : Claim := Claim.mk 4 1000 1 900 .opened

/-- Car 5 granted at 1000 over switch 0, which is in the given mode. -/
def granted (t : Time) (m : SwitchMode) : State :=
  ((green t).moveCar 4 9 1000 .switch).putSwitch 0 (SwitchState.mk m .normal [] none)

/-! ## Start-up and time -/

theorem test_straps_give_the_rights : ((go (ready 9) (.hardReset 5)).ports.toList.map (·.raceControl)) =
    [true, false, true, false] := by decide +kernel
theorem test_low_straps_give_port_0 : ((go (ready 9) (.hardReset 0)).ports.toList.map (·.raceControl)) =
    [true, false, false, false] := by decide +kernel
theorem test_track_time_wraps : (go (ready 4294967295) .trackTimeTick).now = 0 := by decide +kernel
/-- Table 8-2: row 9 INVALID, and row 14 contesting the identity of row 17. -/
theorem test_restore_of_table_8_2 :
    told (go ((((State.reset.putRow 8 voidRow).putRow 16 (rowOf (.marshal (some 0x7E01)))).putRow 13
      (rowOf (.car (some 0x7E01) 63 0)))) .restore) =
      [.storeRowLost 8, .restoreDuplicate 13 0x7E01 (.marshal 0)] := by decide +kernel
theorem test_start_up_ends_at_4 :
    (go (at_ (go State.reset .restore) 3) .restoreEnd).seq.starting = true ∧
      (go (at_ (go State.reset .restore) 4) .restoreEnd).seq.starting = false ∧
      (go (at_ (go State.reset .restore) 4) .restoreEnd).seq.nextFrame = 9 := by decide +kernel

/-! ## Links -/

/-- The status byte shows race control, LAYOUT and a closed window; CRC-8 of 04 01 00. -/
theorem test_seln_fall_composes_done : ((go (go (ready 9) (.poll 0)) (.selnFall 0)).ports[(0 : PortId)]).shiftFrame =
    [0x04, 0x01, 0x00, crc8 [0x04, 0x01, 0x00]] := by decide +kernel
theorem test_crc_of_one_byte : crc8 [0x01] = 0x07 ∧ crc8 [0, 0] = 0 := by decide +kernel
theorem test_poll_frame_is_done : said (go (ready 9) (.requestFrame 0 (byteBits [0x01, 0x00, crc8 [0x01, 0x00]]))) =
    .done [] := by decide +kernel
/-- R165: three zero bytes agree with their CRC, and code 0x00 names no request. -/
theorem test_three_zero_bytes_are_an_unknown_request :
    said (go (ready 9) (.requestFrame 0 (byteBits [0, 0, 0]))) = .refused .unknownRequest := by decide +kernel
/-- R152, R164: a hard reset discards the transaction of port 0 alone; its rise takes no request, and the next one does. -/
theorem test_reset_discards_a_transaction :
    (let frame := byteBits [0x01, 0x00, crc8 [0x01, 0x00]]
     let s := go (go (go (ready 9) (.poll 0)) (.selnFall 0)) (.hardReset 1)
     (s.ports.toList.map (·.selLow) = [true, false, false, false] ∧
       s.ports.toList.map (·.discarded) = [true, false, false, false]) ∧
     (said (go s (.requestFrame 0 frame)) = .idle ∧ said (go s (.poll 0)) = .idle ∧ said (go s (.put 0 [1])) = .idle ∧
       said (go (go s (.requestFrame 0 frame)) (.requestFrame 0 frame)) = .refused .starting ∧
       said (go (go s (.selnFall 0)) (.requestFrame 0 frame)) = .refused .starting)) := by decide +kernel
theorem test_poll : said (go (ready 9) (.poll 0)) = .done [] := by decide +kernel
theorem test_take_of_an_empty_queue : said (go (ready 9) (.take 0)) = .done [0, 0, 0, 0, 0, 0] := by decide +kernel
theorem test_take_of_a_pit_notice : said (go (go (ready 0x12345) (.pitOpen 0)) (.take 0)) =
    .done [0x2D, 3, 0x23, 0x45, 1, 1, 0] := by decide +kernel
theorem test_port_status : said (go (ready 9) (.portStatus 0)) = .done [0, 1, 24, 0, 0, 0] := by decide +kernel
theorem test_port_set : (said (go (ready 9) (.portSet 0 3 4)), said (go (ready 9) (.portSet 0 3 33))) =
    (.done [], .refused (.range 2)) := by decide +kernel
theorem test_port_reset : said (go (go (ready 9) (.poll 0)) (.portReset 0)) = .idle := by decide +kernel
theorem test_select_and_fetch : said (go (go (ready 9) (.select 0 1 2)) (.fetch 0)) =
    .done [1, 2, 0, 0, 0, 0, 0, 0, 0xFF, 1, 0x90, 0, 80, 5, 0xDC, 0, 0, 0] := by decide +kernel
theorem test_select_out_of_range : (said (go (ready 9) (.select 0 8 0)), said (go (ready 9) (.select 0 4 5))) =
    (.refused (.range 1), .refused (.range 2)) := by decide +kernel
/-- The ten fields of a switch applied at once, with actuation time 150 (Table 9-6, step 4). -/
theorem test_put_applies_past_the_last_field :
    said (go (go (ready 9) (.select 0 1 2)) (.put 0 [1, 1, 0, 0, 11, 16, 255, 1, 144, 0, 150, 7, 208])) =
      .done [1, 2, 1] := by decide +kernel
theorem test_put_part_way : said (go (go (ready 9) (.select 0 0 0)) (.put 0 [1, 0, 1, 0])) = .refused (.range 4) := by
  decide +kernel
theorem test_apply : said (go (go (ready 9) (.select 0 5 0)) (.apply 0)) = .done [5, 0, 1] ∧
    said (go (ready 9) (.apply 0)) = .refused .noStaging := by decide +kernel

/-! ## Handsets -/

theorem test_first_report_is_accepted :
    said (go (ready 9) (.reportHandset 0 0x3C07 3 38 0 0 9)) = .done [0] ∧
      ((go (ready 9) (.reportHandset 0 0x3C07 3 38 0 0 9)).handsets.records[(0 : HandsetId)]).map (·.link) =
        some .acquiring := by decide +kernel
theorem test_next_count_goes_live :
    ((go (go (ready 9) (.reportHandset 0 0x3C07 15 38 0 0 9)) (.reportHandset 2 0x3C07 0 38 0 0 9)).handsets.records[
      (0 : HandsetId)]).map (·.link) = some .live := by decide +kernel
theorem test_stale_at_60 :
    let s := (ready 100).putRecord 0 (some (handset 7 .live none false 1 1 100))
    (go (at_ s 159) (.staleExpiry 0)).handsets = s.handsets ∧
      ((go (at_ s 160) (.staleExpiry 0)).handsets.records[(0 : HandsetId)]).map (·.heldCode) = some 0 := by decide +kernel
theorem test_lost_record_is_freed :
    ((go ((ready 3100).putRecord 0 (some (handset 7 .stale none false 0 0 100))) (.handsetLostExpiry 0)).handsets.records[
      (0 : HandsetId)]) = none := by decide +kernel

/-! ## Crossings and switches -/

theorem test_crossing_places_the_car :
    (go (track 1000) (.reportCrossing 0 0 5 10)).tracker.lists[(0 : ZoneId)] = [Occupant.mk 4 990 .sensor] ∧
      (go (track 1000) (.reportCrossing 0 0 5 10)).tracker.cars[(4 : CarId)].stallDeadline = some 4990 := by decide +kernel
theorem test_crossing_with_intent_is_granted :
    told (go ((green 1000).putIntent 4 (some (Intent.mk .shiftOut 2000))) (.reportCrossing 0 1 5 0)) =
      [.throwSwitch 0 4, .decision 0 4 .grant] := by decide +kernel
theorem test_recheck_grants_the_head :
    let s := ((place (green 1020) 4 16 1000).putSwitch 3 (SwitchState.mk .ready .normal [Hold.mk 4 .full] (some 1020))).putPitHold
      4 (some 3)
    (go s (.pitExitRecheck 3)).tracker.lists[(0 : ZoneId)] = [Occupant.mk 4 1020 .switch] ∧
      (go s (.pitExitRecheck 3)).switch 3 = SwitchState.mk (.pending 1070 (Claim.mk 4 1020 16 1000 .opened)) .normal [] none := by
  decide +kernel
theorem test_thrown_sets_the_hold_deadline :
    (go (granted 1050 (.pending 1080 claim)) (.reportSwitchThrown 0 0 0)).switch 0 =
      SwitchState.mk (.set 2550 claim) .thrown [] none := by decide +kernel
theorem test_returned_in_pending_undoes :
    (go (granted 1050 (.pending 1080 claim)) (.reportSwitchReturned 0 0 0)).tracker.lists[(1 : ZoneId)] =
        [Occupant.mk 4 900 .sensor] ∧
      told (go (granted 1050 (.pending 1080 claim)) (.reportSwitchReturned 0 0 0)) =
        [.claimClosed 0 4 .aborted 1000] := by decide +kernel
theorem test_jammed_calls_caution :
    told (go (green 1050) (.reportSwitchJammed 0 0 1)) =
      [.switchFault 0 .jammed .ready .thrown, .course .caution .green 0 (.auto 0)] := by decide +kernel
theorem test_unknown_kind_is_out_of_range : said (go (green 1050) (.reportSwitchUnknownKind 0 0 3 0)) = .refused (.range 2) := by
  decide +kernel
theorem test_actuation_deadline_lapses :
    told (go (granted 1080 (.pending 1080 claim)) (.actuationDeadline 0)) =
      [.claimClosed 0 4 .lapsed 1000, .switchFault 0 .actuation .pending .unknown, .course .caution .green 0 (.auto 0)] := by
  decide +kernel
theorem test_hold_deadline_restores :
    told (go (granted 2550 (.set 2550 claim)) (.holdDeadline 0)) =
        [.restoreSwitch 0, .claimClosed 0 4 (.recorded .opened) 1000] ∧
      (go (granted 2550 (.set 2550 claim)) (.holdDeadline 0)).switch 0 =
        SwitchState.mk (.restoring 2630) .normal [] none := by decide +kernel
theorem test_restoring_deadline_faults :
    (go (granted 2630 (.restoring 2630)) (.restoringActuationDeadline 0)).switch 0 =
      SwitchState.mk .faulted .thrown [] none := by decide +kernel
theorem test_intent_expires : (go ((green 2000).putIntent 4 (some (Intent.mk .pit 2000))) (.intentExpiry 4)).lane.intents[
    (4 : CarId)] = none := by decide +kernel
theorem test_conflict_cap_ends :
    (go ((green 2000).putConflictCap 4 (some (ConflictCap.mk 16 2001))) (.conflictCapEnd 4)).lane.conflictCaps[(4 : CarId)] =
        some (ConflictCap.mk 16 2001) ∧
      (go ((green 2001).putConflictCap 4 (some (ConflictCap.mk 16 2001))) (.conflictCapEnd 4)).lane.conflictCaps[(4 : CarId)] =
        none := by decide +kernel
theorem test_stall : told (go (place (track 4100) 4 0 100) (.stall 4)) = [.stall 4 0 4000] := by decide +kernel

/-! ## Pairing, course and layout -/

theorem test_offer_expires_at_4000 :
    let s := ((ready 5000).putOffers [Offer.mk 4 20 1000])
    (go s (.offerExpiry 4)).binding.offers = [] ∧
      (go (at_ s 4999) (.offerExpiry 4)).binding.offers = [Offer.mk 4 20 1000] := by decide +kernel
theorem test_open_pairing : (go (ready 1000) (.openPairing 0 60)).binding.window = some 61000 := by decide +kernel
theorem test_pairing_window_expires :
    told (go (at_ (go (ready 1000) (.openPairing 0 60)) 61000) .pairingWindowExpiry) =
      [.pairing (some 60), .pairing none] := by decide +kernel
theorem test_close_pairing : (go (go (ready 1000) (.openPairing 0 60)) (.closePairing 0)).binding.window = none := by
  decide +kernel
theorem test_release : told (go (bound (ready 9) 4 7 .reserved) (.release 0 5)) = [.binding 4 none 1] := by decide +kernel
theorem test_start : (go (track 1000) (.start 0)).course.nextLamp = some 2000 ∧
    said (go (ready 1000) (.start 0)) = .refused .phase := by decide +kernel
theorem test_last_lamp_goes_green :
    told (go ((track 6000).putCourse .countdown 1 (some 6000)) .lampExpiry) =
      [.course .green .countdown 0 .countdownEnd] := by decide +kernel
theorem test_stop : (go (green 9) (.stop 0)).course.course = .stop := by decide +kernel
theorem test_caution : (go (green 9) (.caution 0)).course.course = .caution ∧
    said (go (track 9) (.caution 0)) = .refused .state := by decide +kernel
theorem test_green : (go ((green 9).putCourse .caution 0 none) (.green 0)).course.course = .green := by decide +kernel
theorem test_pit_opens_once : told (go (go (ready 9) (.pitOpen 0)) (.pitOpen 0)) = [.pit true] := by decide +kernel
theorem test_pit_close : told (go (go (ready 9) (.pitOpen 0)) (.pitClose 0)) = [.pit true, .pit false] := by decide +kernel
theorem test_zone_lock : (go (ready 9) (.zoneLock 0 63 1)).course.locks[(63 : ZoneId)] = true ∧
    said (go (ready 9) (.zoneLock 0 64 1)) = .refused (.range 1) := by decide +kernel
theorem test_track_clear :
    let s := (granted 1050 (.pending 1080 claim)).putCourse .stop 0 none
    told (go s (.trackClear 0)) =
        [.restoreSwitch 0, .claimClosed 0 4 (.recorded .opened) 1000, .trackClear 1 0] ∧
      (go s (.trackClear 0)).tracker.lists[(9 : ZoneId)] = [] := by decide +kernel
theorem test_switch_disable : said (go (track 9) (.switchDisable 0 3)) = .done [5, 0] := by decide +kernel
theorem test_switch_enable : said (go (go (track 9) (.switchDisable 0 3)) (.switchEnable 0 3)) = .done [0, 0] := by
  decide +kernel
theorem test_switch_clear : said (go (granted 9 .faulted) (.switchClear 0 0)) = .done [0, 0] := by decide +kernel
/-- The small layout passes the checks; with sensor 1 gone, switch 0 has no ENTRY sensor. -/
theorem test_layout_run :
    let s := { track 9 with geo := { (track 9).geo with phase := .layout } }
    said (go s (.layoutRun 0)) = .done [] ∧
      said (go (s.putSensor 1 (Sensor.mk false (.boundary 0) 0 2)) (.layoutRun 0)) = .refused (.layoutFault 1 0) := by
  decide +kernel
theorem test_layout_edit : told (go (place (track 9) 4 0 5) (.layoutEdit 0)) = [.layout .layout] ∧
    (go (place (track 9) 4 0 5) (.layoutEdit 0)).tracker.lists[(0 : ZoneId)] = [] := by decide +kernel

/-! ## Store and rail -/

theorem test_store_save_needs_stwe : said (go (ready 9) (.storeSave 0 17)) = .refused .storeProtected ∧
    said (go (ready 9) (.storeSave 0 16)) = .done [] := by decide +kernel
theorem test_writer_takes_the_lowest_dirty_row :
    ((go (((ready 9).putBinding 13 (Binding.mk none 63 .allowed 5 .dirty)).putBinding 2
      (Binding.mk none 50 .allowed 6 .dirty)) .writerCommitStart).store.writer.commit).map (·.row) = some 2 := by
  decide +kernel
theorem test_commit_takes_5_ms :
    let s := go (ready 9) (.storeSave 0 1)
    (go (at_ s 11) .writerStepEnd).store.writer.commit.map (·.stepEnd) = some 14 ∧
      told (go (at_ (go (at_ s 11) .writerStepEnd) 14) .commitCompletion) = [.storeDone 0 .clean] := by decide +kernel
theorem test_stwe_fall_cuts : told (go (go (go (ready 9) .stweRise) (.storeSave 0 17)) .stweFall) = [.storeDone 16 .cut] := by
  decide +kernel
theorem test_stwe_rise : (go (ready 9) .stweRise).store.stwe = true := by decide +kernel
theorem test_frame_start :
    (go (at_ (onAir (ready 9) 184) 10) .railFrameStart).seq.rdo =
        [true, true, true, true, false, false, true, true, false, true, false, true] ∧
      (go (at_ (onAir (ready 9) 183) 10) .railFrameStart).seq.rdo = [] := by decide +kernel
/-- Frame 0, GREEN, no lamp, pit closed: 000 10 000 0, one 1. -/
theorem test_broadcast_word : (go (onAir (green 9) 11) .broadcastWord).seq.rdo =
    [false, false, false, true, false, false, false, false, false, false, false, true] := by decide +kernel
/-- A BOUND car on throttle 20, 010100: even, brake off, lamp off; not before car 4's slot. -/
theorem test_car_word :
    let s := (bound (green 9) 4 7 .bound).putRecord 0 (some (handset 7 .live (some 4) false 0 0 0))
    (go (onAir s 54) (.carWord 4)).seq.rdo =
        [false, true, false, true, false, false, false, false, false, false] ∧
      (go (onAir s 53) (.carWord 4)).seq.rdo = [] ∧ (go (onAir s 64) (.carWord 4)).seq.rdo = [] := by decide +kernel
theorem test_quiet_window : (go (onAir (ready 9) 174) .quietWindow).seq.win = true ∧
    (go (onAir (ready 9) 173) .quietWindow).seq.win = false := by decide +kernel
/-- A bit period of the sync passes on an empty queue; the one that begins the broadcast word does not, nor one of the next
millisecond. -/
theorem test_bit_periods :
    (after (step (onAir (ready 9) 0))).seq.bitCounter = 1 ∧ (after (step (onAir (ready 9) 11))).seq.bitCounter = 11 ∧
      (after (step (at_ (onAir (ready 9) 40) 6))).seq.bitCounter = 41 ∧
      (after (step (at_ (onAir (ready 9) 79) 6))).seq.bitCounter = 79 := by decide +kernel

/-! ## Witnesses: states and operands that meet the hypotheses of the statements -/

theorem forall_of_all {α : Type} {o : Option α} {P : α → Prop} [DecidablePred P]
    (h : o.all (fun x => decide (P x)) = true) : ∀ x : α, o = some x → P x := by
  rintro x rfl
  simpa using h

theorem identitiesOk_of {s : State}
    (h : (∀ c k : CarId, (s.binding.bindings[c].held.map (·.identity)).isSome = true →
          s.binding.bindings[c].held.map (·.identity) = s.binding.bindings[k].held.map (·.identity) → c = k) ∧
        (∀ m n : MarshalId, s.binding.marshals[m].identity.isSome = true →
          s.binding.marshals[m].identity = s.binding.marshals[n].identity → m = n) ∧
        (∀ (c : CarId) (m : MarshalId), (s.binding.bindings[c].held.map (·.identity)).isSome = true →
          s.binding.marshals[m].identity ≠ s.binding.bindings[c].held.map (·.identity)) ∧
        (∀ j k : HandsetId, ((s.handsets.records[j]).map (·.identity)).isSome = true →
          (s.handsets.records[j]).map (·.identity) = (s.handsets.records[k]).map (·.identity) → j = k) ∧
        (∀ j : HandsetId, (s.handsets.records[j]).all (fun r => decide
          ((∀ c : CarId, r.boundCar = some c ↔ s.binding.bindings[c].held.map (·.identity) = some r.identity) ∧
            (r.marshal = true ↔ ∃ m : MarshalId, s.binding.marshals[m].identity = some r.identity))) = true) ∧
        (s.seq.starting = true → ∀ j : HandsetId, s.handsets.records[j] = none) ∧
        ∀ c : CarId, (s.binding.bindings[c].held).all (fun a => decide
          (a.state = .bound ∨ a.state = .suspended → ∃ j : HandsetId, (s.handsets.records[j]).any (fun r => decide
            (r.identity = a.identity ∧ (a.state = .bound → r.link ≠ .lost))) = true)) = true) : s.identitiesOk := by
  obtain ⟨h1, h2, h3, h4, h5, h6, h7⟩ := h
  refine ⟨fun c k a b ha hb e => h1 c k ?_ ?_, fun m n i hm hn => h2 m n ?_ ?_, fun c m a ha => ?_,
    fun j k a b ha hb e => h4 j k ?_ ?_, fun j r hr => ?_, h6, fun c a ha hs => ?_⟩
  · rw [ha]; rfl
  · rw [ha, hb]; exact congrArg some e
  · rw [hm]; rfl
  · rw [hm, hn]
  · have e := h3 c m
    rw [ha] at e
    exact e rfl
  · rw [ha]; rfl
  · rw [ha, hb]; exact congrArg some e
  · obtain ⟨hc, hm⟩ := forall_of_all (h5 j) r hr
    exact ⟨fun c => (hc c).trans Option.map_eq_some_iff, hm⟩
  · obtain ⟨j, hj⟩ := forall_of_all (h7 c) a ha hs
    obtain ⟨r, hr, e⟩ := Option.any_eq_true _ _ |>.1 hj
    exact ⟨j, r, hr, of_decide_eq_true e⟩

theorem occupancyOk_of {s : State}
    (h : (∀ z : ZoneId, ∀ o ∈ s.tracker.lists[z], (s.tracker.cars[o.car].placed).any (fun pl => decide
          (pl.zone = z ∧ pl.entryStamp = o.entryStamp ∧ pl.way = o.way)) = true) ∧
        (∀ z : ZoneId, (s.tracker.lists[z].map (·.car)).Nodup) ∧
        ∀ c : CarId, (s.tracker.cars[c].placed).all (fun pl => decide
          (∃ o ∈ s.tracker.lists[pl.zone], o.car = c)) = true) : s.occupancyOk := by
  obtain ⟨h1, h2, h3⟩ := h
  refine ⟨fun z o ho => ?_, h2, fun c => forall_of_all (h3 c)⟩
  obtain ⟨pl, hpl, e⟩ := Option.any_eq_true _ _ |>.1 (h1 z o ho)
  exact ⟨pl, hpl, of_decide_eq_true e⟩

/-! ### Steps, reset, start-up and links -/

/-- An empty queue before the first frame; in the sync; at the end of the sync; and a millisecond short. -/
theorem witness_idle_queue :
    State.reset.pending = [] ∧ State.reset.seq.running = false ∧
    ((onAir (ready 9) 0).seq.running = true ∧ ¬ beginsPart 1 ∧ (onAir (ready 9) 0).reachesBit 1) ∧
    ((onAir (ready 9) 198).seq.running = true ∧ ¬ beginsPart 199 ∧ (onAir (ready 9) 198).reachesBit 199) ∧
    (beginsPart 12 ∧ beginsPart 24 ∧ beginsPart 174 ∧ beginsPart 184 ∧ beginsPart 200) ∧
    ¬ (at_ (onAir (ready 9) 79) 6).reachesBit 80 := by
  unfold State.reachesBit beginsPart
  decide +kernel
theorem witness_commands_other_than_a_reset :
    (∀ rcs : BitVec 4, Instr.poll 0 ≠ .hardReset rcs) ∧ Instr.poll 0 ≠ .trackTimeTick ∧
      (∃ t : State, exec (.poll 0) State.reset = .next t) ∧ ∃ t : State, exec (.hardReset 3) State.reset = .next t :=
  ⟨nofun, nofun, ⟨_, rfl⟩, ⟨_, rfl⟩⟩
theorem witness_port_without_rights : (ready 9).seq.starting = false ∧ ((ready 9).ports[(1 : PortId)]).raceControl = false ∧
    ((ready 9).ports[(0 : PortId)]).raceControl = true := by decide +kernel
theorem witness_requests_taken : ∀ p : PortId, (ready 9).takes p ∧ (track 9).takes p := by decide +kernel
/-- SELn still low in a discarded transaction, in the start-up and after it, and in one that a reset would discard. -/
theorem witness_discarded :
    (let s := go (go (ready 9) (.selnFall 3)) (.hardReset 1)
     (s.ports[(3 : PortId)]).discarded = true ∧ s.seq.starting = true) ∧
    ((go (ready 9) (.selnFall 3)).ports[(3 : PortId)]).selLow = true ∧
    (((ready 9).modPort 0 fun pt => { pt with selLow := true, discarded := true }).ports[(0 : PortId)]).discarded = true := by
  decide +kernel
theorem witness_start_up : State.reset.seq.starting = true ∧ (State.reset.ports[(2 : PortId)]).discarded = false ∧ requestOf (.take 2) = some (2, 0x02, []) ∧
    8 ≤ (byteBits [0]).length := by decide +kernel

/-- Rows 17 and 14 of Table 8-2: the car row contested by the marshal row, row 9 INVALID, the others EMPTY. -/
def contested : State :=
  ((State.reset.putRow 8 voidRow).putRow 16 (rowOf (.marshal (some 0x7E01)))).putRow 13
    (rowOf (.car (some 0x7E01) 63 0))
theorem witness_restore :
    contested.seq.starting = true ∧ contested.seq.restored = false ∧
    (∀ m : MarshalId, contested.binding.marshals[m].identity = none) ∧
    (∀ c : CarId, contested.binding.bindings[c].held = none) ∧
    contested.validRow (rowOfMarshal 0) = some (.marshal (some 0x7E01)) ∧
    contested.alertOfRow (rowOfMarshal 0) = none ∧ contested.validRow (rowOfCar 0) = some (.car none 63 0) ∧
    contested.alertOfRow (rowOfCar 0) = none ∧ contested.alertOfRow (rowOfCar 8) = some (.storeRowLost 8) ∧
    contested.alertOfRow (rowOfCar 13) = some (.restoreDuplicate 13 0x7E01 (.marshal 0)) ∧
    (contested.putRow 18 (rowOf (.marshal (some 0x7E01)))).alertOfRow (rowOfMarshal 2) =
      some (.restoreDuplicate 18 0x7E01 (.marshal 0)) := by decide +kernel
/-- A row whose check agrees with a ceiling of 64, a permit of 2, no identity or another kind of content is INVALID, and so is
a row in range whose check does not agree. -/
theorem witness_rows_invalid :
    (State.reset.putRow 0 (rowOf (.car none 64 0))).validRow 0 = none ∧
    (State.reset.putRow 0 (rowOf (.car none 63 2))).validRow 0 = none ∧
    (State.reset.putRow 0 (rowOf (.car none 63 1))).validRow 0 = some (.car none 63 1) ∧
    (State.reset.putRow 0 (rowOf (.car (some 0xFFFF) 63 0))).validRow 0 = none ∧
    (State.reset.putRow 0 (rowOf (.marshal none))).validRow 0 = none ∧
    (State.reset.putRow 16 (rowOf (.marshal (some 0)))).validRow 16 = none ∧
    (State.reset.putRow 16 (StoreRow.mk (some (.marshal none)) 1)).validRow 16 = none := by decide +kernel
theorem test_restore_of_a_barred_car :
    (let t := go (State.reset.putRow 0 (rowOf (.car (some 0x2202) 50 1))) .restore
     t.binding.bindings[(0 : CarId)] = Binding.mk (some (Held.mk 0x2202 .restored .reserved)) 50 .barred 0 .clean) := by
  decide +kernel
theorem witness_start_up_ends :
    (let s := at_ (go State.reset .restore) 4
     s.seq.starting = true ∧ s.seq.restored = true ∧ (s.now - 4).toNat < 2 ^ 31) := by decide +kernel

theorem witness_request_frames :
    requestOf (.put 3 (List.replicate 16 7)) = some (3, 0x12, List.replicate 16 7) ∧
      (Instr.put 3 (List.replicate 16 7)).wellFormed = true ∧ requestOf (.poll 0) = some (0, 0x01, []) ∧
      (Instr.poll 0).wellFormed = true ∧ (List.replicate 7 true).length < 8 := by decide +kernel

/-- Tests 2 to 5 of R153 against whole frames: too short in three ways, a wrong check, an unknown code, a wrong length. -/
theorem witness_failing_frames :
    (∀ bytes ∈ [[(1 : Byte), 0], 1 :: 17 :: List.replicate 30 0, [2, 1, 0]],
      bytes ≠ [] ∧ (bytes.length < 3 ∨ 16 < (bytes.getD 1 0).toNat ∨ bytes.length < (bytes.getD 1 0).toNat + 3)) ∧
    (let sound := fun bytes : List Byte => ¬ (bytes.length < 3 ∨ 16 < (bytes.getD 1 0).toNat ∨
       bytes.length < (bytes.getD 1 0).toNat + 3)
     let checked := fun bytes : List Byte =>
       bytes.getD ((bytes.getD 1 0).toNat + 2) 0 = crc8 (bytes.take ((bytes.getD 1 0).toNat + 2))
     sound [1, 0, 0] ∧ ¬ checked [1, 0, 0] ∧
     sound [0, 0, 0] ∧ checked [0, 0, 0] ∧ (∀ row ∈ requestTable, row.1 ≠ 0) ∧
     sound [1, 1, 9, crc8 [1, 1, 9]] ∧ checked [1, 1, 9, crc8 [1, 1, 9]] ∧
     ∃ row ∈ requestTable, row.1 = 1 ∧ (1 < row.2.2.1 ∨ row.2.2.2 < 1)) := by decide +kernel

/-- A queue of n notices of one class. -/
def filled (n : Nat) (body : NoticeBody) : Port := { Port.reset true with queue := List.replicate n (Notice.mk body 0) }
theorem witness_queue_levels :
    (filled 31 (.layout .run)).queue.length < 32 ∧ (NoticeBody.layout .run).cls = .alert ∧
    (filled 23 (.pit true)).queue.length < (filled 23 (.pit true)).shedLevel ∧ (NoticeBody.pit true).cls = .info ∧
    (filled 24 (.pit true)).shedLevel ≤ (filled 24 (.pit true)).queue.length ∧
    32 ≤ (filled 32 (.layout .run)).queue.length ∧ (NoticeBody.restoreSwitch 0).cls = .directive := by decide +kernel
theorem witness_take : ((go (ready 9) (.pitOpen 0)).ports[(0 : PortId)]).queue = [Notice.mk (.pit true) 9] ∧
    ((ready 9).ports[(0 : PortId)]).queue = [] := by decide +kernel
theorem witness_port_set :
    (1 ≤ (1 : Byte).toNat ∧ (1 : Byte).toNat ≤ 32 ∧ 1 ≤ (32 : Byte).toNat ∧ (32 : Byte).toNat ≤ 32) ∧
    ¬ (1 ≤ (0 : Byte).toNat ∧ (0 : Byte).toNat ≤ 32) ∧ ¬ (1 ≤ (33 : Byte).toNat ∧ (33 : Byte).toNat ≤ 32) := by decide
theorem witness_select : (RecordRef.zone 63).table = 0 ∧ (RecordRef.zone 63).index = 63 ∧
    7 < (8 : Byte).toNat ∧ ∀ ref : RecordRef, ref.table = 4 → ref.index ≠ 5 := by
  refine ⟨rfl, rfl, by decide, fun ref => ?_⟩
  cases ref with
  | marshal m => revert m; decide
  | _ => intro h; exact absurd h (by simp [RecordRef.table])
theorem witness_fetch : ((ready 9).ports[(0 : PortId)]).cursor = none ∧
    ((go (ready 9) (.select 0 3 16)).ports[(0 : PortId)]).cursor = some (.binding 15) := by decide +kernel
/-- Car 5 placed, held as the second in a hold list, and with a claim. -/
theorem witness_car_record :
    (let s := ((place (green 1020) 4 16 1000).putSwitch 3 (SwitchState.mk .ready .normal
       [Hold.mk 7 .full, Hold.mk 4 .wait] (some 1020))).putPitHold 4 (some 3)
     s.lane.pitHolds[(4 : CarId)] = some 3 ∧ (s.switch 3).holds = [Hold.mk 7 .full] ++ Hold.mk 4 .wait :: [] ∧
       s.tracker.lists[(16 : ZoneId)] = [] ++ Occupant.mk 4 1000 .sensor :: []) ∧
    ((granted 1050 (.pending 1080 claim)).switch 0).mode.claim = some claim := by decide +kernel

/-- A port 0 whose staging is given. -/
def staged (s : State) (st : Staging) : State := s.modPort 0 fun pt => { pt with staging := some st }
def defaultOf (ref : RecordRef) : Staging := Staging.mk .unconditional ref ref.defaultImage 1
/-- Zone 0 from field 1 on: one byte to field 2, four bytes part way into field 4, seven to the end, eight past it. -/
theorem witness_put :
    ((ready 9).ports[(0 : PortId)]).staging = none ∧
    ((staged (ready 9) (defaultOf (.handset 0))).ports[(0 : PortId)]).staging = some (defaultOf (.handset 0)) ∧
    (RecordRef.handset 0).readOnly = true ∧ (RecordRef.zone 0).readOnly = false ∧
    (let sizes := (RecordRef.zone 0).fieldSizes
     1 ≤ sizes.length ∧ 0 + 1 = (sizes.take (2 - 1)).sum ∧ 0 + 7 = sizes.sum ∧
     (sizes.take (4 - 1)).sum < 0 + 4 ∧ 0 + 4 < (sizes.take 4).sum ∧ sizes.sum < 0 + 8) := by decide +kernel

/-! ### Events that are not due: absent, and one millisecond before their time -/

theorem witness_absent_events (s : State) (hs : s = ready 9) :
    (s.seq.restored = true ∧ s.seq.starting = false) ∧
    (∀ (h : HandsetId) (r : Handset), s.handsets.records[h] = some r → r.link = .lost) ∧
    (∀ w : SwitchId, (s.switch w).holds = [] ∧ (s.switch w).mode = .ready) ∧
    (∀ c : CarId, s.lane.intents[c] = none ∧ s.lane.conflictCaps[c] = none ∧ s.tracker.cars[c].stallDeadline = none) ∧
    s.binding.offers = [] ∧ s.binding.window = none ∧ s.course.nextLamp = none ∧ s.store.writer = .idle ∧
    s.store.stwe = false ∧ State.reset.seq.running = false := by
  subst hs
  refine ⟨by decide +kernel, fun h r e => ?_, by decide +kernel⟩
  have : ∀ h : HandsetId, (ready 9).handsets.records[h] = none := by decide +kernel
  rw [this h] at e
  cases e

/-- Parts of the frame out of their order, and before their millisecond. -/
theorem witness_parts_not_due :
    ((onAir (ready 9) 183).seq.bitCounter.val < 184 ∧ 12 ≤ (onAir (ready 9) 12).seq.bitCounter.val ∧
      ¬ (12 ≤ (onAir (ready 9) 24).seq.bitCounter.val ∧ (onAir (ready 9) 24).seq.bitCounter.val < 24) ∧
      ¬ (24 ≤ (onAir (ready 9) 34).seq.bitCounter.val ∧ (onAir (ready 9) 34).seq.bitCounter.val < 34) ∧
      ¬ (174 ≤ (onAir (ready 9) 173).seq.bitCounter.val ∧ (onAir (ready 9) 173).seq.bitCounter.val < 184)) ∧
    ¬ (at_ (onAir (ready 9) 174) 8).reachesBit 184 ∧ ¬ (at_ (onAir (ready 9) 34) 5).reachesBit 44 ∧
    ¬ (at_ (onAir (ready 9) 0) 4).reachesBit 12 := by
  unfold State.reachesBit
  decide +kernel

/-- A record not yet silent for 60 ms, and one STALE for 2999 ms. -/
theorem witness_handsets_one_before :
    (let s := (ready 159).putRecord 0 (some (handset 7 .live none false 1 1 100))
     ∀ r : Handset, s.handsets.records[(0 : HandsetId)] = some r →
       (r.link = .stale ∨ r.link = .lost ∨ 2 ^ 31 ≤ (s.now - (r.reportStamp + 60)).toNat)) ∧
    (let s := (ready 3099).putRecord 0 (some (handset 7 .stale none false 0 0 100))
     ∀ r : Handset, s.handsets.records[(0 : HandsetId)] = some r →
       (r.link ≠ .stale ∨ 2 ^ 31 ≤ (s.now - (r.stateStamp + 3000)).toNat)) :=
  ⟨forall_of_all (by decide +kernel), forall_of_all (by decide +kernel)⟩

theorem witness_times_one_before :
    (let s := (granted 1079 (.pending 1080 claim)).putIntent 4 (some (Intent.mk .pit 1080))
     ∀ i : Intent, s.lane.intents[(4 : CarId)] = some i → 2 ^ 31 ≤ (s.now - i.expiry).toNat) ∧
    (let s := (ready 1079).putConflictCap 4 (some (ConflictCap.mk 16 1080))
     ∀ cap : ConflictCap, s.lane.conflictCaps[(4 : CarId)] = some cap → 2 ^ 31 ≤ (s.now - cap.ends).toNat) ∧
    (let s := (ready 1079).putOffers [Offer.mk 4 20 (1080 - 4000)]
     ∀ o ∈ s.binding.offers, o.car = 4 → 2 ^ 31 ≤ (s.now - (o.stamp + 4000)).toNat) ∧
    (let s := at_ (go (ready 1000) (.openPairing 0 5)) 5999
     ∀ d : Time, s.binding.window = some d → 2 ^ 31 ≤ (s.now - d).toNat) ∧
    (let s := (track 5999).putCourse .countdown 1 (some 6000)
     ∀ d : Time, s.course.nextLamp = some d → 2 ^ 31 ≤ (s.now - d).toNat) ∧
    (let s := (place (track 4099) 4 0 100)
     ∀ d : Time, s.tracker.cars[(4 : CarId)].stallDeadline = some d → 2 ^ 31 ≤ (s.now - d).toNat) ∧
    (let s := (green 1019).putSwitch 3 (SwitchState.mk .ready .normal [Hold.mk 4 .full] (some 1020))
     ∀ d : Time, (s.switch 3).recheck = some d → 2 ^ 31 ≤ (s.now - d).toNat) ∧
    2 ^ 31 ≤ ((at_ State.reset 3).now - 4).toNat ∧ 2 ^ 31 ≤ ((ready 3).now - (ready 3).seq.nextFrame).toNat :=
  ⟨forall_of_all (by decide +kernel), forall_of_all (by decide +kernel), by decide +kernel,
    forall_of_all (by decide +kernel), forall_of_all (by decide +kernel), forall_of_all (by decide +kernel),
    forall_of_all (by decide +kernel), by decide +kernel⟩

theorem witness_deadlines_one_before :
    (∀ (d : Time) (cl : Claim), ((granted 1079 (.pending 1080 claim)).switch 0).mode = .pending d cl →
      2 ^ 31 ≤ ((granted 1079 (.pending 1080 claim)).now - d).toNat) ∧
    (∀ (d : Time) (cl : Claim), ((granted 1079 (.set 1080 claim)).switch 0).mode = .set d cl →
      2 ^ 31 ≤ ((granted 1079 (.set 1080 claim)).now - d).toNat) ∧
    (∀ d : Time, ((granted 1079 (.restoring 1080)).switch 0).mode = .restoring d →
      2 ^ 31 ≤ ((granted 1079 (.restoring 1080)).now - d).toNat) ∧
    ∀ x : Commit, (go (ready 9) (.storeSave 0 1)).store.writer = .invalidating x →
      2 ^ 31 ≤ ((go (ready 9) (.storeSave 0 1)).now - x.stepEnd).toNat := by
  have e1 : ((granted 1079 (.pending 1080 claim)).switch 0).mode = .pending 1080 claim := by decide +kernel
  have e2 : ((granted 1079 (.set 1080 claim)).switch 0).mode = .set 1080 claim := by decide +kernel
  have e3 : ((granted 1079 (.restoring 1080)).switch 0).mode = .restoring 1080 := by decide +kernel
  have e4 : (go (ready 9) (.storeSave 0 1)).store.writer =
    .invalidating (Commit.mk 0 (.car none 63 0) 0 (.save 0) 11) := by decide +kernel
  refine ⟨fun d cl e => ?_, fun d cl e => ?_, fun d e => ?_, fun x e => ?_⟩
  · rw [e1] at e; cases e; decide +kernel
  · rw [e2] at e; cases e; decide +kernel
  · rw [e3] at e; cases e; decide +kernel
  · rw [e4] at e; cases e; decide +kernel

/-! ### Applies -/

/-- A staging of a default record passes tests 1 to 4, in LAYOUT. -/
theorem witness_may_apply (ref : RecordRef) (h : ref.readOnly = false) :
    (staged (ready 9) (defaultOf ref)).mayApply 0 (defaultOf ref) :=
  ⟨⟨rfl, rfl⟩, rfl, h, rfl, fun _ => rfl, nofun⟩

/-- A staging conditional on the revision that the record stands at. -/
theorem witness_may_apply_conditional :
    (staged (ready 9) (Staging.mk (.conditional (some 0)) .settings (RecordRef.settings).defaultImage 1)).mayApply 0
      (Staging.mk (.conditional (some 0)) .settings (RecordRef.settings).defaultImage 1) :=
  ⟨by decide +kernel, by rfl, rfl, by decide +kernel, nofun, fun r e => by cases e; decide +kernel⟩

/-- The four refusals of tests 1 to 4, and of test 5 at lane 5, field 2 of a zone. -/
theorem witness_apply_refusals :
    (RecordRef.car 0).readOnly = true ∧
    (((ready 9).ports[(1 : PortId)]).raceControl = false ∧ (RecordRef.settings).readOnly = false) ∧
    ((RecordRef.zone 0).isGeometry = true ∧ ((track 9).ports[(0 : PortId)]).raceControl = true ∧ (track 9).geo.phase = .run) ∧
    ((StagingMode.conditional (some 1) = .conditional (some 1)) ∧ some 1 ≠ (ready 9).revisionOf .settings) ∧
    (∀ j : Nat, j < 1 → (fieldTests (.zone 0) [1, 5, 1, 0, 250, 0, 0, 0])[j]? = some true) ∧
    (fieldTests (.zone 0) [1, 5, 1, 0, 250, 0, 0, 0])[1]? = some false := by decide +kernel

/-- Images at the bounds of their ranges, one of each kind of record and each kind of sensor. -/
theorem witness_records_in_range :
    (∀ b ∈ fieldTests (.zone 63) (Zone.mk true 4 8 1000 60000 7).image, b = true) ∧
    (∀ b ∈ fieldTests (.switch 31) ((Switch.mk true .pitExit 3 .outward 63 63 (some 63) 5000 500 5000 7).image .ready
      .normal), b = true) ∧
    (∀ b ∈ fieldTests (.sensor 127) [1, 0, 63, 0xFF, 3, 0], b = true) ∧
    (∀ b ∈ fieldTests (.sensor 0) [1, 1, 63, 31, 3, 0], b = true) ∧
    (∀ b ∈ fieldTests (.sensor 0) [0, 2, 0xFF, 0xFF, 0, 0], b = true) ∧
    (∀ b ∈ fieldTests .settings (Settings.mk 63 63 5000 15 63 3000 63 false false 9).image, b = true) ∧
    (∀ b ∈ fieldTests .settings (Settings.mk 0 0 200 0 0 100 0 true true 9).image, b = true) := by decide +kernel

/-- Car 5 BOUND to 7, marshal 1 listing 8, handset 9 LIVE and of no car. -/
def tables : State :=
  (((bound (ready 100) 4 7 .bound).putMarshal 0 (MarshalEntry.mk (some 8) 0 .clean)).putRecord 0
    (some (handset 7 .live (some 4) false 0 0 100))).putRecord 1 (some (handset 9 .live none false 0 0 100))
theorem witness_identities : tables.identitiesOk := identitiesOk_of (by decide +kernel)
theorem witness_identities_staged (st : Staging) : (staged tables st).identitiesOk := witness_identities
/-- Binding record 6: 7 is in use, 8 a marshal's, 9 and the absence are free to take. -/
theorem witness_binding_apply :
    (∃ (k : CarId) (a : Held), k ≠ 5 ∧ tables.binding.bindings[k].held = some a ∧ some (7 : Ident) = some a.identity) ∧
    (¬ ∃ (k : CarId) (a : Held), k ≠ 5 ∧ tables.binding.bindings[k].held = some a ∧ some (8 : Ident) = some a.identity) ∧
    (∃ m : MarshalId, tables.binding.marshals[m].identity = some 8) ∧
    (¬ ∃ (k : CarId) (a : Held), k ≠ 5 ∧ tables.binding.bindings[k].held = some a ∧ some (9 : Ident) = some a.identity) ∧
    (¬ ∃ m : MarshalId, tables.binding.marshals[m].identity = some 9) ∧
    ((0xFFFF : Ident) = 0 ∨ (0xFFFF : Ident) = 0xFFFF) ∧
    (∃ (h : HandsetId) (r : Handset), tables.handsets.records[h] = some r ∧ r.identity = 9 ∧ r.link = .live) := by
  have no : ∀ i : Ident, (∀ k : CarId, k ≠ 5 → tables.binding.bindings[k].held.map (·.identity) ≠ some i) →
      ¬ ∃ (k : CarId) (a : Held), k ≠ 5 ∧ tables.binding.bindings[k].held = some a ∧ some i = some a.identity := by
    rintro i h ⟨k, a, hk, ha, e⟩
    exact h k hk (by rw [ha]; exact e.symm)
  refine ⟨⟨4, Held.mk 7 .paired .bound, by decide +kernel⟩, no 8 (by decide +kernel), by decide +kernel,
    no 9 (by decide +kernel), by decide +kernel, by decide, 1, handset 9 .live none false 0 0 100, by decide +kernel⟩

theorem witness_marshal_apply :
    (∃ (k : CarId) (a : Held), tables.binding.bindings[k].held = some a ∧ some (7 : Ident) = some a.identity) ∧
    (∃ n : MarshalId, n ≠ 1 ∧ tables.binding.marshals[n].identity = some 8) ∧
    (¬ ∃ n : MarshalId, n ≠ 1 ∧ tables.binding.marshals[n].identity = some 9) ∧
    ∀ (k : CarId) (a : Held), tables.binding.bindings[k].held = some a → a.identity ≠ 9 :=
  ⟨⟨4, Held.mk 7 .paired .bound, by decide +kernel⟩, by decide +kernel, by decide +kernel,
    State.carOf_eq_none.1 (by decide +kernel)⟩

/-! ### Handsets (record 0, last count 3, reported at 150) -/

def hearing (r : Handset) : State := (ready 200).putRecord 0 (some r)
def heard (link : LinkState) (car : Option CarId) (marshal : Bool) (held cand : BitVec 4) : Handset :=
  handset 7 link car marshal held cand 150
/-- Every record in use, by identities 100 to 123. -/
def crowd : HandsetTable :=
  HandsetTable.mk (Vector.ofFn fun k => some (handset (100 + BitVec.ofNat 16 k.val) .live none false 0 0 150)) .armed
def crowded : State := { ready 200 with handsets := crowd }

theorem witness_reports_out_of_range :
    ¬ reportInRange 0 0 0 0 0 ∧ ¬ reportInRange 0xFFFF 0 0 0 0 ∧ ¬ reportInRange 7 16 0 0 0 ∧
    ¬ reportInRange 7 15 64 0 0 ∧ ¬ reportInRange 7 15 63 16 0 ∧ ¬ reportInRange 7 15 63 15 16 ∧
    reportInRange 0xFFFE 15 63 15 15 := by
  simp [reportInRange]
/-- Count differences 0, 8 and 15: the report is dropped. -/
theorem witness_dropped_reports :
    (∀ count ∈ [(3 : Byte), 11, 2], (hearing (heard .acquiring none false 0 0)).hears 0 0 (heard .acquiring none false 0 0) 7
      count 63 0 15) ∧
    (heard .acquiring none false 0 0).difference 3 = 0 ∧ (heard .acquiring none false 0 0).difference 11 = 8 ∧
    (heard .acquiring none false 0 0).difference 2 = 15 ∧ (heard .live none false 0 0).difference 3 = 0 := by
  unfold State.hears reportInRange
  decide +kernel
theorem witness_full_table :
    (∀ h : HandsetId, ∃ r : Handset, crowded.handsets.records[h] = some r ∧ r.identity ≠ 7) ∧
      crowded.handsets.fullAlert = .armed ∧ reportInRange 7 0 0 0 0 := by
  refine ⟨fun h => ⟨handset (100 + BitVec.ofNat 16 h.val) .live none false 0 0 150, by revert h; decide +kernel⟩, rfl, ?_⟩
  unfold reportInRange
  decide +kernel
theorem witness_first_report :
    (∀ (k : HandsetId) (r : Handset), tables.handsets.records[k] = some r → r.identity ≠ 10) ∧
      tables.handsets.records[(2 : HandsetId)] = none ∧ (∀ k : HandsetId, k < 2 → tables.handsets.records[k] ≠ none) :=
  ⟨State.handsetOf_eq_none.1 (by decide +kernel), by decide +kernel⟩
/-- Differences 2 and 7 of a record in ACQUIRING, 1 and 7 of one in LIVE; a code that repeats, one seen once, OFF, and 5. -/
theorem witness_accepted_in_acquiring (count : Byte) (h : count ∈ [(5 : Byte), 10]) :
    (hearing (heard .acquiring none false 1 2)).hears 0 0 (heard .acquiring none false 1 2) 7 count 0 0 0 := by
  unfold State.hears reportInRange
  revert count
  decide +kernel
theorem witness_accepted_in_live (count : Byte) (h : count ∈ [(4 : Byte), 10]) :
    (hearing (heard .live none false 1 2)).hears 0 0 (heard .live none false 1 2) 7 count 0 0 0 := by
  unfold State.hears reportInRange
  revert count
  decide +kernel
theorem witness_accepted_differences :
    (heard .live none false 1 2).difference 4 = 1 ∧ (heard .live none false 1 2).difference 5 = 2 ∧
    (heard .live none false 1 2).difference 10 = 7 ∧ (heard .stale none false 0 0).link = .stale ∧
    ¬ (heard .live none false 1 1).edge 1 ∧ ¬ (heard .live none false 1 2).edge 3 ∧ 5 ≤ (5 : Byte).toNat := by
  unfold Handset.edge
  decide +kernel
theorem witness_next_count :
    (let r := heard .acquiring none false 0 0
     (hearing r).hears 0 0 r 7 4 0 0 0 ∧ r.difference 4 = 1 ∧ ¬ r.edge 0 ∧ r.boundCar = none ∧ r.marshal = false) ∧
    (let r := heard .acquiring none true 0 0
     let s := (hearing r).putMarshal 3 (MarshalEntry.mk (some 7) 0 .clean)
     s.hears 0 0 r 7 4 0 0 0 ∧ s.marshalOf 7 = some 3) ∧
    (∀ st ∈ [HeldState.bound, .reserved, .suspended],
      (bound (hearing (heard .acquiring (some 15) false 0 0)) 15 7 st).hears 0 0 (heard .acquiring (some 15) false 0 0) 7 4 0 0 0 ∧
      (bound (hearing (heard .acquiring (some 15) false 0 0)) 15 7 st).binding.bindings[(15 : CarId)].held =
        some (Held.mk 7 .paired st)) := by
  unfold State.hears reportInRange Handset.edge
  decide +kernel

/-- Code 1 held 0, seen twice: an edge, of a car that is BOUND and of one that is SUSPENDED; completed in LIVE, in ACQUIRING
on a later count, by the count that takes a RESERVED car's handset to LIVE, and by a report after LOST. -/
theorem witness_lane_edge :
    (∀ x ∈ [(heard .live (some 4) false 0 1, HeldState.bound, (10 : Byte)),
        (heard .acquiring (some 4) false 0 1, .bound, 10), (heard .acquiring (some 4) false 0 1, .reserved, 4),
        (heard .live (some 4) false 0 1, .suspended, 4), (heard .lost (some 4) false 0 1, .suspended, 3)],
      (let s := bound (hearing x.1) 4 7 x.2.1
       s.hears 0 0 x.1 7 x.2.2 0 1 0 ∧ x.1.accepts x.2.2 ∧ x.1.edge 1)) ∧
    (let r := heard .acquiring (some 4) false 0 1
     ((bound (hearing r) 4 7 .reserved).accepted 0 0 r 4 0 1 0 0).binding.bindings[(4 : CarId)].held =
       some (Held.mk 7 .paired .bound) ∧
     ((bound (hearing r) 4 7 .bound).accepted 0 0 r 10 0 1 0 0).binding.bindings[(4 : CarId)].held =
       some (Held.mk 7 .paired .bound)) ∧
    (heard .live (some 4) false 0 2).edge 2 ∧ (heard .live (some 4) false 0 3).edge 3 := by
  unfold State.hears reportInRange Handset.edge Handset.accepts
  decide +kernel
theorem witness_lane_edge_identities :
    (bound (hearing (heard .live (some 4) false 0 1)) 4 7 .bound).identitiesOk ∧
    (bound (hearing (heard .acquiring (some 4) false 0 1)) 4 7 .bound).identitiesOk ∧
    (bound (hearing (heard .acquiring (some 4) false 0 1)) 4 7 .reserved).identitiesOk ∧
    (bound (hearing (heard .lost (some 4) false 0 1)) 4 7 .suspended).identitiesOk :=
  ⟨identitiesOk_of (by decide +kernel), identitiesOk_of (by decide +kernel), identitiesOk_of (by decide +kernel),
    identitiesOk_of (by decide +kernel)⟩
theorem witness_lane_edge_unbound (c : CarId) (a : Held)
    (h : ((bound (hearing (heard .live (some 4) false 0 1)) 4 7 .suspended).accepted 0 0
      (heard .live (some 4) false 0 1) 4 0 1 0 0).binding.bindings[c].held = some a) : a.state ≠ .bound := by
  have all : ∀ c : CarId, (((bound (hearing (heard .live (some 4) false 0 1)) 4 7 .suspended).accepted 0 0
      (heard .live (some 4) false 0 1) 4 0 1 0 0).binding.bindings[c].held).all
        (fun a => decide (a.state ≠ .bound)) = true := by decide +kernel
  exact forall_of_all (all c) a h

/-- A marshal's edge in ACQUIRING, by the next count, and in LIVE, with the course GREEN, COUNTDOWN and STOP. -/
theorem witness_marshal_edge_acquiring (count : Byte) (h : count ∈ [(5 : Byte), 4]) :
    (hearing (heard .acquiring none true 0 1)).hears 0 0 (heard .acquiring none true 0 1) 7 count 0 1 0 ∧
      (heard .acquiring none true 0 1).accepts count := by
  unfold State.hears reportInRange Handset.accepts
  revert count
  decide +kernel
theorem witness_marshal_edge :
    (hearing (heard .live none true 0 3)).hears 0 0 (heard .live none true 0 3) 7 4 0 3 0 ∧
    (heard .live none true 0 3).accepts 4 ∧ (heard .live none true 0 3).edge 3 ∧
    (heard .live none true 0 3).linkAfter 4 = .live ∧ (heard .acquiring none true 0 1).edge 1 ∧
    (heard .acquiring none true 0 1).linkAfter 5 = .acquiring ∧ (heard .acquiring none true 0 1).linkAfter 4 = .live := by
  unfold State.hears reportInRange Handset.edge Handset.accepts
  decide +kernel
theorem witness_marshal_edge_courses :
    (let s := hearing (heard .live none true 0 3)
     s.course.course = .stop ∧ (s.putCourse .green 0 none).course.course = .green ∧
       (s.putCourse .countdown 5 (some 900)).course.course ≠ .green ∧
       (s.putCourse .green 0 none).hears 0 0 (heard .live none true 0 3) 7 4 0 3 0) := by
  unfold State.hears reportInRange
  decide +kernel

/-- A PAIR edge: the window CLOSED, and OPEN at strengths 9 and 10 about the floor, with no offer and with two offers, the
second at port 0's sensor 20. -/
def pairer (marshal : Bool) : Handset := heard .live none marshal 0 4
def pairing : State := go (((track 200).putSensor 21 (Sensor.mk true .pairing 1 0)).putRecord 0 (some (pairer false))) (.openPairing 0 60)
def offered : State := pairing.putOffers [Offer.mk 2 21 100, Offer.mk 4 20 150]
theorem witness_pair_edge_completed :
    (pairer false).edge 4 ∧ (pairer false).accepts 4 ∧ (pairer true).edge 4 ∧ (pairer true).accepts 4 ∧
    (heard .acquiring none false 0 4).accepts 4 ∧ (heard .acquiring none false 0 4).accepts 10 := by
  unfold Handset.edge Handset.accepts
  decide +kernel
theorem witness_pair_edge :
    (hearing (pairer false)).hears 0 0 (pairer false) 7 4 0 4 15 ∧ (hearing (pairer false)).binding.window = none ∧
    (pairing.putRecord 0 (some (pairer true))).hears 0 0 (pairer true) 7 4 0 4 15 ∧
    pairing.hears 0 0 (pairer false) 7 4 0 4 9 ∧ pairing.binding.window ≠ none ∧
    (9 : Byte).toNat < pairing.course.settings.pairingFloor.toNat ∧
    pairing.course.settings.pairingFloor.toNat ≤ (10 : Byte).toNat ∧
    (∀ o ∈ pairing.binding.offers, pairing.geo.sensors[o.sensor].owner ≠ 0) ∧
    offered.hears 0 0 (pairer false) 7 4 0 4 10 ∧
    (∀ q ∈ [Offer.mk 2 21 100], offered.geo.sensors[q.sensor].owner ≠ 0) ∧ offered.geo.sensors[(20 : SensorId)].owner = 0 := by
  unfold State.hears reportInRange
  decide +kernel
theorem witness_pair_same :
    (let s := (bound offered 4 7 .bound)
     s.lampsAndOffersOk ∧ s.binding.bindings[(4 : CarId)].held = some (Held.mk 7 .paired .bound) ∧
       s.binding.offers = [Offer.mk 2 21 100] ++ Offer.mk 4 20 150 :: []) := by
  unfold State.lampsAndOffersOk
  decide +kernel
/-- Car 5 held 8, whose record is LOST, and 7 was car 1's; the edge completed in LIVE, and in ACQUIRING by the next count and
by a later one. -/
def paired (link : LinkState) (st : HeldState) : State :=
  ((bound (bound offered 4 8 .suspended) 0 7 st).putRecord 0 (some (heard link (some 0) false 0 4))).putRecord 1
    (some (handset 8 .lost (some 4) false 0 0 100))
theorem witness_pair_ok :
    (∀ x ∈ [(LinkState.live, HeldState.bound, (4 : Byte)), (.acquiring, .reserved, 4), (.acquiring, .bound, 5)],
      (let r := heard x.1 (some 0) false 0 4
       let s := paired x.1 x.2.1
       s.lampsAndOffersOk ∧ s.hears 0 0 r 7 x.2.2 0 4 10 ∧ r.accepts x.2.2 ∧ r.edge 4 ∧
         s.binding.bindings[(4 : CarId)].held.map (·.identity) ≠ some 7 ∧ s.binding.window ≠ none)) ∧
    (heard .acquiring (some 0) false 0 4).linkAfter 4 = .live ∧
    (heard .acquiring (some 0) false 0 4).linkAfter 5 = .acquiring := by
  unfold State.lampsAndOffersOk State.hears reportInRange Handset.edge Handset.accepts
  decide +kernel
theorem witness_pair_ok_identities :
    (paired .live .bound).identitiesOk ∧ (paired .acquiring .reserved).identitiesOk ∧
      (paired .acquiring .bound).identitiesOk :=
  ⟨identitiesOk_of (by decide +kernel), identitiesOk_of (by decide +kernel), identitiesOk_of (by decide +kernel)⟩

/-- The last millisecond of the timers' windows: 60 ms and 3000 ms. -/
theorem witness_silent_handsets :
    ((at_ (hearing (heard .live none false 1 1)) 210).now - (150 + 60)).toNat < 2 ^ 31 ∧
    ((at_ (hearing (heard .stale none false 0 0)) 3150).now - (150 + 3000)).toNat < 2 ^ 31 ∧
    (at_ (hearing (heard .live none false 1 1)) 210).handsets.records[(0 : HandsetId)] = some (heard .live none false 1 1) ∧
    ((hearing (heard .live none true 0 0)).putMarshal 3 (MarshalEntry.mk (some 7) 0 .clean)).marshalOf 7 = some 3 ∧
    (∀ st ∈ [HeldState.bound, .reserved], (bound (hearing (heard .stale (some 4) false 0 0)) 4 7 st).binding.bindings[
      (4 : CarId)].held = some (Held.mk 7 .paired st)) := by decide +kernel

/-! ### Pairing and release -/

theorem witness_pairing_requests :
    (5 ≤ (5 : Byte).toNat ∧ (120 : Byte).toNat ≤ 120) ∧ ¬ (5 ≤ (4 : Byte).toNat ∧ (4 : Byte).toNat ≤ 120) ∧
    ¬ (5 ≤ (121 : Byte).toNat ∧ (121 : Byte).toNat ≤ 120) ∧ (ready 9).course.course ≠ .countdown ∧
    ((track 9).putCourse .countdown 5 (some 1009)).course.course = .countdown ∧ (ready 9).binding.window = none ∧
    (pairing.binding.window = some 60200 ∧ ((at_ pairing 60200).now - 60200).toNat < 2 ^ 31) ∧
    ((at_ offered 4100).now - (100 + 4000)).toNat < 2 ^ 31 ∧
    offered.binding.offers = [] ++ Offer.mk 2 21 100 :: [Offer.mk 4 20 150] := by decide +kernel
theorem witness_offers : offered.lampsAndOffersOk := by
  unfold State.lampsAndOffersOk
  decide +kernel
theorem witness_release :
    tables.seq.starting = false ∧ tables.binding.bindings[(4 : CarId)].held = some (Held.mk 7 .paired .bound) ∧
      tables.binding.bindings[(15 : CarId)].held = none ∧ (16 : Byte) = BitVec.ofNat 8 ((15 : CarId).val + 1) ∧
      ¬ (1 ≤ (17 : Byte).toNat ∧ (17 : Byte).toNat ≤ 16) ∧ ¬ (1 ≤ (0 : Byte).toNat ∧ (0 : Byte).toNat ≤ 16) := by
  decide +kernel

/-! ### Crossings -/

theorem placesCrossing_of {s : State} {p : PortId} {n : SensorId} {c : CarId} {stamp : Time}
    (h : (s.takes p ∧ s.geo.phase = .run ∧ s.geo.sensors[n].defined = true ∧ s.geo.sensors[n].owner = p ∧
        ¬ (s.tracker.cars[c].lastSensor = some n ∧
          ((stamp - s.tracker.cars[c].lastStamp).toNat < 100 ∨ (s.tracker.cars[c].lastStamp - stamp).toNat < 100))) ∧
      (s.tracker.cars[c].placed).all (fun pl => decide (0 ≤ (stamp - pl.entryStamp).toInt)) = true) :
    s.placesCrossing p n c stamp :=
  ⟨h.1.1, h.1.2.1, h.1.2.2.1, h.1.2.2.2.1, h.1.2.2.2.2, forall_of_all h.2⟩

/-- Phase, unknown sensors, a foreign sensor, cars 0 and 17, and sensor 20 with the window CLOSED and OPEN. -/
theorem witness_refused_crossings :
    (ready 9).geo.phase = .layout ∧ (track 9).geo.phase = .run ∧
    (∀ n : SensorId, (5 : Byte) = BitVec.ofNat 8 n.val → (track 9).geo.sensors[n].defined = false) ∧
    (∀ n : SensorId, (128 : Byte) ≠ BitVec.ofNat 8 n.val) ∧
    (track 9).geo.sensors[(0 : SensorId)].owner ≠ 1 ∧
    ¬ (1 ≤ (0 : Byte).toNat ∧ (0 : Byte).toNat ≤ 16) ∧ ¬ (1 ≤ (17 : Byte).toNat ∧ (17 : Byte).toNat ≤ 16) ∧
    (track 9).geo.sensors[(20 : SensorId)].kind = .pairing ∧ (track 9).binding.window = none ∧
    offered.binding.window ≠ none ∧ offered.binding.offers = [Offer.mk 2 21 100] ++ Offer.mk 4 20 150 :: [] ∧
    (∀ o ∈ offered.binding.offers, o.car ≠ 15) ∧ offered.binding.offers.length ≤ 3 ∧
    (let s := pairing.putOffers [Offer.mk 0 20 1, Offer.mk 1 20 2, Offer.mk 2 20 3, Offer.mk 3 20 4]
     (∀ o ∈ s.binding.offers, o.car ≠ 15) ∧ 3 ≤ [Offer.mk 1 20 2, Offer.mk 2 20 3, Offer.mk 3 20 4].length) := by
  decide +kernel
/-- A second crossing of sensor 0 at 99 ms is a DUPLICATE, at 100 ms none; one at sensor 9, 1 ms before the entry, is LATE. -/
theorem witness_dropped_crossings :
    (let car := (place (track 1090) 4 0 991).tracker.cars[(4 : CarId)]
     car.lastSensor = some 0 ∧ (1090 - car.lastStamp).toNat < 100 ∧ ¬ (1091 - car.lastStamp).toNat < 100 ∧
       car.placed = some (Placed.mk 0 991 .sensor false) ∧ ((990 : Time) - 991).toInt < 0) ∧
    (track 9).geo.sensors[(9 : SensorId)].kind = .boundary 9 := by decide +kernel

/-- Car 5, granted from zone 1 to zone 9, is seen in zone 9, which its claim reaches, or in zone 0, which it does not. -/
theorem witness_placed_crossings :
    (granted 1050 (.pending 1080 claim)).placesCrossing 0 9 4 (1050 - (0 : Byte).setWidth 32) ∧
    (granted 1050 (.pending 1080 claim)).placesCrossing 0 0 4 (1050 - (50 : Byte).setWidth 32) ∧
    (let s := granted 1050 (.pending 1080 claim)
     s.geo.sensors[(0 : SensorId)].kind = .boundary 0 ∧ s.geo.sensors[(9 : SensorId)].kind = .boundary 9 ∧
       s.geo.zones[s.geo.switches[(0 : SwitchId)].targetZone].lane = s.geo.zones[(9 : ZoneId)].lane ∧
       s.geo.zones[s.geo.switches[(0 : SwitchId)].targetZone].lane ≠ s.geo.zones[(0 : ZoneId)].lane) :=
  ⟨placesCrossing_of (by decide +kernel), placesCrossing_of (by decide +kernel), by decide +kernel⟩
/-- A car that joined zone 9 by SWITCH 299 ms ago conflicts with guard time 300, one of 300 ms ago does not; and a held car
leaves the list of its switch. -/
theorem witness_conflict_and_hold :
    (granted 1299 (.set 2500 claim)).placesCrossing 0 9 7 (1299 - (0 : Byte).setWidth 32) ∧
    (((1299 : Time) - 1000).toInt < (300 : BitVec 16).toNat ∧ ¬ ((1300 : Time) - 1000).toInt < (300 : BitVec 16).toNat) ∧
    (((green 1020).putSwitch 3 (SwitchState.mk .ready .normal [Hold.mk 4 .full] (some 1020))).putPitHold 4
      (some 3)).lane.pitHolds[(4 : CarId)] = some 3 :=
  ⟨placesCrossing_of (by decide +kernel), by decide +kernel⟩

theorem witness_moves_and_grants :
    (granted 1050 (.pending 1080 claim)).occupancyOk ∧ (place (green 1000) 4 1 900).occupancyOk ∧
    (place (green 1000) 4 1 900).tracker.cars[(4 : CarId)].placed = some (Placed.mk 1 900 .sensor false) ∧
    (granted 1050 (.pending 1080 claim)).tracker.cars[claim.car].placed =
      some (Placed.mk ((green 1).geo.switches[(0 : SwitchId)].targetZone) claim.grantStamp .switch false) ∧
    (place (green 1000) 4 1 900).tracker.cars[claim.car].placed.map (·.way) = some .sensor :=
  ⟨occupancyOk_of (by decide +kernel), occupancyOk_of (by decide +kernel), by decide +kernel⟩

/-! ### Decisions -/

/-- Car 5 at sensor 1 before the CROSSOVER 0 with the intent SHIFT_OUT, and without. -/
def asking (s : State) : State := s.putIntent 4 (some (Intent.mk .shiftOut 3000))
def moving (s : State) : State := s.putSwitch 0 (SwitchState.mk (.restoring 1080) .thrown [] none)
def crowdPort (s : State) : State := s.modPort 0 fun pt => { pt with queue := List.replicate 32 (Notice.mk (.pit true) 0) }
theorem witness_entry_crossing :
    (asking (green 1000)).placesCrossing 0 1 4 (1000 - (0 : Byte).setWidth 32) ∧
    (moving (green 1000)).placesCrossing 0 1 4 (1000 - (0 : Byte).setWidth 32) ∧
    (asking (track 1000)).placesCrossing 0 1 4 (1000 - (0 : Byte).setWidth 32) ∧
    (asking (crowdPort (green 1000))).placesCrossing 0 1 4 (1000 - (0 : Byte).setWidth 32) :=
  ⟨placesCrossing_of (by decide +kernel), placesCrossing_of (by decide +kernel), placesCrossing_of (by decide +kernel),
    placesCrossing_of (by decide +kernel)⟩
/-- An entry crossing with everything to hand on: car 5 holds an OPEN claim of switch 0, car 8 joined zone 1 by SWITCH, and
the course is COUNTDOWN. -/
def busyCrossing : State :=
  ((asking (granted 1050 (.set 2500 claim))).moveCar 7 1 1000 .switch).putCourse .countdown 3 (some 1900)
theorem witness_busy_crossing :
    busyCrossing.placesCrossing 0 1 4 (1050 - (0 : Byte).setWidth 32) ∧
    busyCrossing.geo.sensors[(1 : SensorId)].kind = .entry 1 0 ∧ (busyCrossing.switch 0).mode.claim = some claim ∧
    busyCrossing.tracker.lists[(1 : ZoneId)] = [Occupant.mk 7 1000 .switch] ∧
    (told (busyCrossing.afterCrossing 1 1 4 1050) = [.missed 0 4 1, .conflict 4 1 7, .jump 4 1 3 1050]) ∧
    (busyCrossing.afterCrossing 1 1 4 1050).firstFails 4 0 laneOrder .course :=
  ⟨placesCrossing_of (by decide +kernel), by decide +kernel, by decide +kernel, by decide +kernel, by decide +kernel,
    (State.laneDecision_some _ _ _ _).1 (by decide +kernel)⟩
theorem witness_intents :
    (track 9).geo.sensors[(1 : SensorId)].kind = .entry 1 0 ∧ (track 9).geo.switches[(0 : SwitchId)].kind ≠ .pitExit ∧
    ((asking (green 1000)).lane.intents[(4 : CarId)]).map (·.code) = some .shiftOut ∧
    (moving (green 1000)).lane.intents[(4 : CarId)] = none ∧ ((moving (green 1000)).switch 0).mode.runState = .restoring ∧
    ((green 1000).switch 0).mode.runState ∉ [RunState.pending, .set, .restoring] := by decide +kernel
/-- No check fails; the first, the third and the last check fails. -/
theorem witness_entry_decisions :
    (∀ r ∈ laneOrder, ¬ ((asking (green 1000)).afterCrossing 1 1 4 1000).fails 4 0 r) ∧
    ((asking (track 1000)).afterCrossing 1 1 4 1000).firstFails 4 0 laneOrder .course ∧
    ((asking (moving (green 1000))).afterCrossing 1 1 4 1000).firstFails 4 0 laneOrder .busy ∧
    ((asking (crowdPort (green 1000))).afterCrossing 1 1 4 1000).firstFails 4 0 laneOrder .queue :=
  ⟨(State.laneDecision_none _ _ _).1 (by decide +kernel), (State.laneDecision_some _ _ _ _).1 (by decide +kernel),
    (State.laneDecision_some _ _ _ _).1 (by decide +kernel), (State.laneDecision_some _ _ _ _).1 (by decide +kernel)⟩

/-- Car 5 at sensor 17 before the PIT_EXIT 3: behind a held car, at a free exit, and in STOP. -/
def behind (s : State) : State :=
  (s.putSwitch 3 (SwitchState.mk .ready .normal [Hold.mk 7 .full] (some 1020))).putPitHold 7 (some 3)
theorem witness_pit_exit :
    (behind (green 1000)).placesCrossing 0 17 4 (1000 - (0 : Byte).setWidth 32) ∧
    (green 1000).placesCrossing 0 17 4 (1000 - (0 : Byte).setWidth 32) ∧
    (track 1000).placesCrossing 0 17 4 (1000 - (0 : Byte).setWidth 32) :=
  ⟨placesCrossing_of (by decide +kernel), placesCrossing_of (by decide +kernel), placesCrossing_of (by decide +kernel)⟩
theorem witness_pit_exit_decisions :
    ((((behind (green 1000)).afterCrossing 17 16 4 1000).switch 3).holds ≠ [] ∧
      (((green 1000).afterCrossing 17 16 4 1000).switch 3).holds = [] ∧
      (track 9).geo.sensors[(17 : SensorId)].kind = .entry 16 3 ∧ (track 9).geo.switches[(3 : SwitchId)].kind = .pitExit) ∧
    (∀ r ∈ exitOrder, ¬ ((green 1000).afterCrossing 17 16 4 1000).fails 4 3 r) ∧
    ((track 1000).afterCrossing 17 16 4 1000).firstFails 4 3 exitOrder .course ∧
    ((crowdPort (green 1000)).afterCrossing 17 16 4 1000).firstFails 4 3 exitOrder .queue :=
  ⟨by decide +kernel, (State.exitDecision_none _ _ _ (by decide +kernel)).1 (by decide +kernel),
    (State.exitDecision_some _ _ _ _ (by decide +kernel)).1 (by decide +kernel),
    (State.exitDecision_some _ _ _ _ (by decide +kernel)).1 (by decide +kernel)⟩
/-- The head of the list, judged at its recheck time, alone and with a second car behind it. -/
theorem witness_recheck :
    (behind (green 1020)).holdsOk ∧
    (((behind (green 1020)).switch 3).holds = Hold.mk 7 .full :: [] ∧ ((behind (green 1020)).switch 3).recheck = some 1020 ∧
      ((behind (green 1020)).now - 1020).toNat < 2 ^ 31) ∧
    (∀ r ∈ exitOrder, ¬ (behind (green 1020)).fails 7 3 r) ∧
    (behind (track 1020)).firstFails 7 3 exitOrder .course ∧
    ((behind (track 1020)).putSwitch 3 (SwitchState.mk .ready .normal [Hold.mk 7 .course] (some 1020))).firstFails 7 3
      exitOrder .course := by
  refine ⟨?_, by decide +kernel, (State.exitDecision_none _ _ _ (by decide +kernel)).1 (by decide +kernel),
    (State.exitDecision_some _ _ _ _ (by decide +kernel)).1 (by decide +kernel),
    (State.exitDecision_some _ _ _ _ (by decide +kernel)).1 (by decide +kernel)⟩
  unfold State.holdsOk
  decide +kernel
theorem witness_timed_events :
    (let s := place (track 4100) 4 0 100
     s.tracker.cars[(4 : CarId)].placed = some (Placed.mk 0 100 .sensor false) ∧
       s.tracker.cars[(4 : CarId)].stallDeadline = some 4100 ∧ (s.now - 4100).toNat < 2 ^ 31) ∧
    ((green 2000).putIntent 4 (some (Intent.mk .pit 2000))).lane.intents[(4 : CarId)] = some (Intent.mk .pit 2000) ∧
    ((green 2000).putConflictCap 4 (some (ConflictCap.mk 16 2000))).lane.conflictCaps[(4 : CarId)] =
      some (ConflictCap.mk 16 2000) ∧ ((green 2000).now - 2000).toNat < 2 ^ 31 := by decide +kernel

/-! ### Switches -/

theorem witness_switch_reports :
    (∀ w : SwitchId, (7 : Byte) = BitVec.ofNat 8 w.val → (track 9).geo.switches[w].defined = false) ∧
    (∀ w : SwitchId, (32 : Byte) ≠ BitVec.ofNat 8 w.val) ∧ (track 9).geo.switches[(0 : SwitchId)].owner ≠ 3 ∧
    2 < (3 : Byte).toNat ∧ ((track 9).switch 0).mode.runState ≠ .pending ∧
    ((track 9).switch 0).mode.runState ∈ [RunState.ready, .faulted, .disabled] ∧ ((track 9).switch 0).mode.claim = none := by
  decide +kernel
theorem witness_takes_report :
    (∀ m ∈ [SwitchMode.ready, .pending 1080 claim, .set 2550 claim, .restoring 1100, .faulted, .disabled],
      (granted 1050 m).takesReport 0 0 0 ∧ ((granted 1050 m).switch 0).mode = m) ∧
    ((granted 1050 .ready).course.settings.autoCaution = true ∧ (granted 1050 .ready).course.course = .green) ∧
    (track 9).course.course ≠ .green := by
  unfold State.takesReport
  decide +kernel
theorem witness_deadlines :
    ((granted 1080 (.pending 1080 claim)).now - 1080).toNat < 2 ^ 31 ∧
    (∀ m ∈ [SwitchMode.pending 1080 claim, .set 1080 claim, .restoring 1080], ((granted 1080 m).switch 0).mode = m) ∧
    ((granted 1080 (.set 1080 claim)).ports[(0 : PortId)]).queue.length < 32 ∧
    32 ≤ ((crowdPort (granted 1080 (.set 1080 claim))).ports[(0 : PortId)]).queue.length := by decide +kernel
theorem witness_switch_requests :
    (∀ m ∈ [SwitchMode.ready, .disabled, .faulted], ((granted 9 m).switch 0).mode = m) ∧
      (0 : Byte) = BitVec.ofNat 8 (0 : SwitchId).val ∧ (granted 9 .ready).geo.switches[(0 : SwitchId)].defined = true ∧
      (granted 9 .ready).seq.starting = false := by decide +kernel

/-! ### Course and layout -/

theorem witness_course :
    (ready 9).geo.phase = .layout ∧ (track 9).course.course = .stop ∧ (green 9).course.course = .green ∧
    ((green 9).putCourse .caution 0 none).course.course = .caution ∧
    (let s := (track 2000).putCourse .countdown 2 (some 2000)
     s.course.course = .countdown ∧ s.course.nextLamp = some 2000 ∧ (s.now - 2000).toNat < 2 ^ 31 ∧ 2 ≤ s.course.lampCount) ∧
    ((track 2000).putCourse .countdown 1 (some 2000)).course.lampCount = 1 := by decide +kernel
theorem witness_pit_and_locks :
    (ready 9).course.pitOpen = false ∧ (go (ready 9) (.pitOpen 0)).course.pitOpen = true ∧
    (63 : Byte) = BitVec.ofNat 8 (63 : ZoneId).val ∧ (1 : Byte).toNat ≤ 1 ∧ 63 < (64 : Byte).toNat ∧ 1 < (2 : Byte).toNat ∧
    (ready 9).course.locks[(63 : ZoneId)] = ((0 : Byte) == 1) ∧ (ready 9).course.locks[(63 : ZoneId)] ≠ ((1 : Byte) == 1) := by
  decide +kernel
/-- In STOP with a claim, the owner's queue with room and full. -/
theorem witness_track_clear :
    (let s := (granted 1050 (.pending 1080 claim)).putCourse .stop 0 none
     s.course.course = .stop ∧ (s.switch 0).mode.claim ≠ none ∧ (s.switch 1).mode.claim = none ∧
       ¬ 32 ≤ ((((List.finRange 32).take (0 : SwitchId).val).foldl s.tellCleared s).ports[(0 : PortId)]).queue.length ∧
       ((crowdPort s).switch 0).mode.claim ≠ none ∧
       32 ≤ ((((List.finRange 32).take (0 : SwitchId).val).foldl (crowdPort s).tellCleared (crowdPort s)).ports[
         (0 : PortId)]).queue.length) ∧ (green 9).course.course ≠ .stop := by decide +kernel

def editing : State := { track 9 with geo := { (track 9).geo with phase := .layout } }
theorem witness_layout_sound :
    (∀ w : SwitchId, editing.geo.switches[w].defined = true → editing.geo.switchSound w) ∧
    (∀ n : SensorId, editing.geo.sensors[n].defined = true → editing.geo.sensorSound n) := by
  have hw : ∀ w : SwitchId, editing.geo.switches[w].defined = true → editing.geo.switchOk w = true := by decide +kernel
  have hn : ∀ n : SensorId, editing.geo.sensors[n].defined = true → editing.geo.sensorOk n = true := by decide +kernel
  exact ⟨fun w h => (editing.geo.switchOk_iff w).1 (hw w h), fun n h => (editing.geo.sensorOk_iff n).1 (hn n h)⟩
/-- Without sensor 17, switch 3 fails and switch 0 does not; with sensor 30 at zone 40, it alone of the sensors fails. -/
def noSensor : State := editing.putSensor 17 (Sensor.mk false (.boundary 0) 0 2)
def noZone : State := editing.putSensor 30 (Sensor.mk true (.boundary 40) 0 1)
theorem witness_layout_unsound :
    (noSensor.geo.switches[(3 : SwitchId)].defined = true ∧ ¬ noSensor.geo.switchSound 3 ∧
      ∀ k : SwitchId, k < 3 → noSensor.geo.switches[k].defined = true → noSensor.geo.switchSound k) ∧
    (∀ w : SwitchId, noZone.geo.switches[w].defined = true → noZone.geo.switchSound w) ∧
    noZone.geo.sensors[(30 : SensorId)].defined = true ∧ ¬ noZone.geo.sensorSound 30 ∧
    ∀ k : SensorId, k < 30 → noZone.geo.sensors[k].defined = true → noZone.geo.sensorSound k := by
  have h1 : noSensor.geo.switchOk 3 = false := by decide +kernel
  have h2 : ∀ k : SwitchId, k < 3 → noSensor.geo.switches[k].defined = true → noSensor.geo.switchOk k = true := by
    decide +kernel
  have h3 : ∀ w : SwitchId, noZone.geo.switches[w].defined = true → noZone.geo.switchOk w = true := by decide +kernel
  have h4 : noZone.geo.sensorOk 30 = false := by decide +kernel
  have h5 : ∀ k : SensorId, k < 30 → noZone.geo.sensors[k].defined = true → noZone.geo.sensorOk k = true := by
    decide +kernel
  refine ⟨⟨by decide +kernel, fun h => ?_, fun k hk hd => (Geometry.switchOk_iff _ k).1 (h2 k hk hd)⟩,
    fun w hd => (Geometry.switchOk_iff _ w).1 (h3 w hd), by decide +kernel, fun h => ?_,
    fun k hk hd => (Geometry.sensorOk_iff _ k).1 (h5 k hk hd)⟩
  · rw [(Geometry.switchOk_iff _ _).2 h] at h1
    cases h1
  · rw [(Geometry.sensorOk_iff _ _).2 h] at h4
    cases h4
theorem witness_layout_edit :
    (track 9).geo.phase = .run ∧ (track 9).course.course = .stop ∧ (green 9).course.course ≠ .stop ∧
    (¬ ∃ w : SwitchId, ((track 9).switch w).mode.runState ∈ [RunState.pending, .set, .restoring]) ∧
    ∃ w : SwitchId, ((moving (track 9)).switch w).mode.runState ∈ [RunState.pending, .set, .restoring] := by
  decide +kernel

/-! ### Store and rail -/

/-- Rows 1, 16, 17 and 20; STWE low and high; the writer busy and idle. -/
theorem witness_store_save :
    ¬ (1 ≤ (0 : Byte).toNat ∧ (0 : Byte).toNat ≤ 20) ∧ ¬ (1 ≤ (21 : Byte).toNat ∧ (21 : Byte).toNat ≤ 20) ∧
    (17 : Byte) = BitVec.ofNat 8 ((16 : RowId).val + 1) ∧ (16 : Byte) = BitVec.ofNat 8 ((15 : RowId).val + 1) ∧
    (ready 9).store.stwe = false ∧ (go (ready 9) .stweRise).store.stwe = true ∧ (ready 9).store.writer = .idle ∧
    (go (ready 9) (.storeSave 0 1)).store.writer ≠ .idle := by decide +kernel
/-- Car rows 3 and 14 DIRTY: the writer may take the lower; marshal row 17 alone waits for STWE. -/
theorem witness_writer_choice :
    (let s := ((ready 9).putBinding 13 (Binding.mk none 63 .allowed 5 .dirty)).putBinding 2 (Binding.mk none 50 .allowed 6 .dirty)
     s.mayCommit 2 ∧ ∀ k : RowId, k < 2 → ¬ s.mayCommit k) ∧
    (∀ k : RowId, ¬ ((ready 9).putMarshal 0 (MarshalEntry.mk none 1 .dirty)).mayCommit k) ∧
    (((ready 9).store.writer = .idle ∧ (ready 9).course.settings.autoSave = true) ∧ (ready 9).seq.starting = false) := by
  unfold State.mayCommit
  decide +kernel
/-- The commit of row 1 at its two ends, its revision moved and not, and of marshal row 17 cut by the fall of STWE. -/
def saving (t : Time) (x : Writer) : State := ((go (ready t) .stweRise).putWriter x)
def commit (r : RowId) : Commit := Commit.mk r (if r.val < 16 then .car none 63 0 else .marshal none) 0 (.save 0) 11
theorem witness_commits :
    ((saving 11 (.invalidating (commit 0))).store.writer = .invalidating (commit 0) ∧
      ((saving 11 (.invalidating (commit 0))).now - (commit 0).stepEnd).toNat < 2 ^ 31) ∧
    (saving 11 (.writing (commit 16))).store.writer = .writing (commit 16) ∧
    (saving 11 (.writing (commit 16))).unmoved (commit 16) ∧
    ¬ ((saving 11 (.writing (commit 0))).putBinding 0 (Binding.mk none 63 .allowed 1 .dirty)).unmoved (commit 0) ∧
    (saving 11 .idle).store.stwe = true ∧ (commit 15).row.val < 16 ∧ 16 ≤ (commit 16).row.val := by
  unfold State.unmoved
  decide +kernel
theorem witness_contents_in_range : contentOk 0 (commit 0).content ∧ contentOk 16 (commit 16).content ∧
    contentOk 15 (.car (some 0xFFFE) 63 1) ∧ contentOk 19 (.marshal (some 1)) :=
  ⟨(contentInRange_iff _ _).1 (by decide +kernel), (contentInRange_iff _ _).1 (by decide +kernel),
    (contentInRange_iff _ _).1 (by decide +kernel), (contentInRange_iff _ _).1 (by decide +kernel)⟩
/-- The row that a commit has begun with is INVALID, and the completed row is VALID with the snapshot. -/
theorem test_rows_of_a_commit :
    (go (ready 9) (.storeSave 0 1)).validRow 0 = none ∧
    (go (at_ (go (at_ (go (ready 9) (.storeSave 0 1)) 11) .writerStepEnd) 14) .commitCompletion).validRow 0 =
      some (.car none 63 0) := by decide +kernel
theorem witness_frame :
    (let s := at_ (onAir (ready 9) 184) 10
     s.seq.running = true ∧ 184 ≤ s.seq.bitCounter.val ∧ (s.now - s.seq.nextFrame).toNat < 2 ^ 31) ∧
    ((onAir (ready 9) 11).seq.bitCounter.val < 12 ∧ (onAir (ready 9) 11).reachesBit 12 ∧
      (onAir (ready 9) 183).seq.bitCounter.val < 184 ∧ (onAir (ready 9) 174).reachesBit 184) ∧
    ((track 9).putCourse .countdown 5 (some 1009)).lampsAndOffersOk ∧
    (go (at_ (onAir (ready 9) 199) 10) .railFrameStart).seq.frameCounter ≠ 0 := by
  unfold State.lampsAndOffersOk State.reachesBit
  decide +kernel
/-- The slots of cars 1 and 16 in the parts before them. -/
theorem witness_car_slots :
    (12 ≤ (onAir (ready 9) 12).seq.bitCounter.val ∧ (onAir (ready 9) 23).seq.bitCounter.val < 24 ∧
      (onAir (ready 9) 12).reachesBit (24 + 10 * (0 : CarId).val)) ∧
    (14 + 10 * (15 : CarId).val ≤ (onAir (ready 9) 164).seq.bitCounter.val ∧
      (onAir (ready 9) 173).seq.bitCounter.val < 24 + 10 * (15 : CarId).val ∧
      (onAir (ready 9) 164).reachesBit (24 + 10 * (15 : CarId).val)) := by
  unfold State.reachesBit
  decide +kernel
/-- Car 5 in STOP, VACANT, and BOUND in GREEN to a handset in each link state. -/
theorem witness_car_word :
    (track 9).course.course = .stop ∧ (green 9).binding.bindings[(0 : CarId)].held = none ∧
    (∀ link ∈ [LinkState.acquiring, .stale, .live],
      (let s := (bound (green 9) 4 7 .bound).putRecord 0 (some (handset 7 link (some 4) false 0 0 5))
       s.course.course = .green ∧ s.binding.bindings[(4 : CarId)].held = some (Held.mk 7 .paired .bound) ∧
         s.handsets.records[(0 : HandsetId)] = some (handset 7 link (some 4) false 0 0 5))) := by decide +kernel
theorem witness_car_word_identities :
    ((bound (green 9) 4 7 .bound).putRecord 0 (some (handset 7 .live (some 4) false 0 0 5))).identitiesOk :=
  identitiesOk_of (by decide +kernel)

/-! ### Invariants: a state of a race that meets them, and a step from it -/

def racing : State := { granted 1050 (.pending 1080 claim) with pending := [.trackTimeTick] }
theorem witness_step_of_a_race : ∃ t : State, step racing = .next t := ⟨_, rfl⟩
theorem witness_invariants :
    racing.portsWf ∧ racing.occupancyOk ∧ racing.identitiesOk ∧ racing.holdsOk ∧ racing.lampsAndOffersOk ∧
      racing.layoutQuiet ∧ (ready 9).layoutQuiet := by
  refine ⟨?_, occupancyOk_of (by decide +kernel), identitiesOk_of (by decide +kernel), ?_, ?_, ?_⟩
  · unfold State.portsWf Port.wf
    decide +kernel
  · unfold State.holdsOk
    decide +kernel
  · unfold State.lampsAndOffersOk
    decide +kernel
  · unfold State.layoutQuiet
    decide +kernel

/-- The first frame's sync, before and after a bit period. -/
def firstFrame : State := go (at_ (go State.reset .restore) 4) .restoreEnd
theorem witness_frame_invariant :
    firstFrame.frameOk ∧ (after (step firstFrame)).frameOk ∧ (after (step firstFrame)).seq.bitCounter = 1 ∧
      (go firstFrame .broadcastWord).frameOk ∧ (go firstFrame .broadcastWord).seq.bitCounter = 12 := by
  unfold State.frameOk
  decide +kernel

end Sys2Proof.Tests
end

section
/-! What a command on a port can do: it touches the ports alone, or carries out one request of Table 10-3 (R152, R153). -/

namespace Sys2Proof.Machine

-- One after the other, the proofs need no thread each.
set_option Elab.async false

/-! ## Changes of the ports alone -/

/-- t is s but for the ports. -/
def State.portsOnly (s t : State) : Prop := t = { s with ports := t.ports }

theorem State.portsOnly_refl (s : State) : s.portsOnly s := rfl

theorem State.portsOnly.trans {s t u : State} (h : s.portsOnly t) (g : t.portsOnly u) : s.portsOnly u := by
  unfold State.portsOnly at *
  rw [g, h]

theorem State.modPort_portsOnly (s : State) (p : PortId) (f : Port → Port) : s.portsOnly (s.modPort p f) := rfl

theorem State.offerWhere_portsOnly (s : State) (dest : PortId → Bool) (body : NoticeBody) :
    s.portsOnly (s.offerWhere dest body) := rfl

theorem State.countLinkError_portsOnly (s : State) (p : PortId) : s.portsOnly (s.countLinkError p) := by
  rw [State.countLinkError_cases]
  split
  · exact (s.modPort_portsOnly p _).trans (State.offerWhere_portsOnly ..)
  · exact s.modPort_portsOnly p _

theorem State.frameError_portsOnly (s : State) (p : PortId) : s.portsOnly (s.frameError p) :=
  (s.countLinkError_portsOnly p).trans (State.modPort_portsOnly ..)

theorem State.checkErrorReply_portsOnly (s : State) (p : PortId) : s.portsOnly (s.checkErrorReply p) :=
  ((s.modPort_portsOnly p _).trans (State.countLinkError_portsOnly ..)).trans (State.modPort_portsOnly ..)

theorem State.discardEnded_portsOnly (s : State) (p : PortId) : s.portsOnly (s.discardEnded p) := rfl

/-! ## Requests -/

/-- What the end of a transaction on port p can leave: the ports changed alone, or one request of Table 10-3 carried out. -/
def State.answers (s : State) (p : PortId) (t : State) : Prop :=
  s.portsOnly t ∨ ∃ (name : RequestName) (payload : List Byte), t = (s.taken p).carryOut p name payload

/-- The request is handed on only by a port that takes requests. -/
theorem State.request_answers {s : State} {p : PortId} {op : State → State} (name : RequestName) (payload : List Byte)
    (h : ∀ u : State, op u = u.carryOut p name payload) : s.answers p (s.request p op) := by
  cases hd : (s.ports[p]).discarded with
  | true => exact .inl (State.request_discarded p op hd ▸ s.discardEnded_portsOnly p)
  | false =>
    cases hs : s.seq.starting with
    | true => exact .inl (State.request_starting p op hs hd ▸ s.modPort_portsOnly p _)
    | false => exact .inr ⟨name, payload, (State.request_running p op ⟨hs, hd⟩).trans (h _)⟩

/-- Ending the transaction and then clearing the check-error flag is what taking a request does. -/
theorem State.endTransaction_setCheckError (s : State) (p : PortId) :
    (s.endTransaction p).setCheckError p false = s.taken p := by
  simp [State.endTransaction, State.setCheckError, State.taken, State.modPort]

theorem State.judgeRequest_answers (s : State) (p : PortId) (code : Byte) (payload : List Byte) :
    s.answers p ((s.endTransaction p).judgeRequest p code payload) := by
  have taken : s.portsOnly (s.taken p) := s.modPort_portsOnly p _
  unfold State.judgeRequest
  rw [State.endTransaction_setCheckError]
  split
  · exact .inl (taken.trans (State.modPort_portsOnly ..))
  · split
    · exact .inl (taken.trans (State.frameError_portsOnly ..))
    · exact .inr ⟨_, _, rfl⟩

theorem State.judgeFrame_answers (s : State) (p : PortId) (bytes : List Byte) :
    s.answers p ((s.endTransaction p).judgeFrame p bytes) := by
  have ended : s.portsOnly (s.endTransaction p) := s.modPort_portsOnly p _
  unfold State.judgeFrame
  split
  · exact .inl (ended.trans (State.modPort_portsOnly ..))
  · simp only
    split
    · exact .inl (ended.trans (State.frameError_portsOnly ..))
    · split
      · exact .inl (ended.trans (State.checkErrorReply_portsOnly ..))
      · exact s.judgeRequest_answers p _ _

theorem exec_requestFrame_answers (p : PortId) (sdi : List Bool) (s : State) :
    ∃ t : State, exec (.requestFrame p sdi) s = .next t ∧ s.answers p t := by
  refine ⟨_, rfl, ?_⟩
  cases hd : (s.ports[p]).discarded with
  | true => exact .inl (State.riseOfSel_discarded p _ hd ▸ s.discardEnded_portsOnly p)
  | false =>
    rw [State.riseOfSel_kept p _ hd]
    split
    · exact .inl (s.modPort_portsOnly p _)
    · exact s.judgeFrame_answers p _

theorem exec_put_answers (p : PortId) (values : List Byte) (s : State) :
    ∃ t : State, exec (.put p values) s = .next t ∧ s.answers p t := by
  refine ⟨_, rfl, ?_⟩
  have ended : s.portsOnly (s.endTransaction p) := s.modPort_portsOnly p _
  cases hd : (s.ports[p]).discarded with
  | true => exact .inl (State.riseOfSel_discarded p _ hd ▸ s.discardEnded_portsOnly p)
  | false =>
    rw [State.riseOfSel_kept p _ hd, State.endTransaction_setCheckError]
    split
    · exact .inl (ended.trans (State.modPort_portsOnly ..))
    · split
      · exact .inl (ended.trans (State.frameError_portsOnly ..))
      · simp only
        split
        · exact .inl ((s.modPort_portsOnly p _).trans (State.frameError_portsOnly ..))
        · exact .inr ⟨.put, values, rfl⟩

/-- The two bytes of a value, joined again, are the value (R165). -/
theorem bytes_joined (x : BitVec 16) : x.extractLsb' 8 8 ++ x.extractLsb' 0 8 = x :=
  (BitVec.extractLsb'_append_extractLsb'_eq_extractLsb' (x := x) (show 8 = 0 + 8 from rfl)).trans
    BitVec.extractLsb'_eq_self

theorem wordAt_bytes2 (x : BitVec 16) (rest : List Byte) : wordAt (bytes2 x ++ rest) 0 = x := bytes_joined x

/-- A request row on a port ends a transaction there. -/
theorem exec_requestOf_answers {c : Instr} {p : PortId} {code : Byte} {payload : List Byte}
    (h : requestOf c = some (p, code, payload)) (s : State) : ∃ t : State, exec c s = .next t ∧ s.answers p t := by
  cases c <;> simp only [requestOf, Option.some.injEq, Prod.mk.injEq, reduceCtorEq] at h <;> obtain ⟨rfl, -, -⟩ := h
  case put values => exact exec_put_answers _ values s
  case reportHandset identity count throttle code battery strength =>
    refine ⟨_, rfl, State.request_answers .reportHandset
      (bytes2 identity ++ [count, throttle, code, battery, strength]) fun u => ?_⟩
    unfold State.carryOut
    rw [wordAt_bytes2]
    rfl
  case poll => exact ⟨_, rfl, State.request_answers .poll [] fun _ => rfl⟩
  case take => exact ⟨_, rfl, State.request_answers .take [] fun _ => rfl⟩
  case portStatus => exact ⟨_, rfl, State.request_answers .portStatus [] fun _ => rfl⟩
  case portSet a b => exact ⟨_, rfl, State.request_answers .portSet [a, b] fun _ => rfl⟩
  case portReset => exact ⟨_, rfl, State.request_answers .portReset [] fun _ => rfl⟩
  case select a b => exact ⟨_, rfl, State.request_answers .select [a, b] fun _ => rfl⟩
  case fetch => exact ⟨_, rfl, State.request_answers .fetch [] fun _ => rfl⟩
  case apply => exact ⟨_, rfl, State.request_answers .apply [] fun _ => rfl⟩
  case reportCrossing a b c => exact ⟨_, rfl, State.request_answers .reportCrossing [a, b, c] fun _ => rfl⟩
  case reportSwitchThrown a b => exact ⟨_, rfl, State.request_answers .reportSwitch [a, 0, b] fun _ => rfl⟩
  case reportSwitchReturned a b => exact ⟨_, rfl, State.request_answers .reportSwitch [a, 1, b] fun _ => rfl⟩
  case reportSwitchJammed a b => exact ⟨_, rfl, State.request_answers .reportSwitch [a, 2, b] fun _ => rfl⟩
  case reportSwitchUnknownKind a k b => exact ⟨_, rfl, State.request_answers .reportSwitch [a, k, b] fun _ => rfl⟩
  case start => exact ⟨_, rfl, State.request_answers .start [] fun _ => rfl⟩
  case stop => exact ⟨_, rfl, State.request_answers .stop [] fun _ => rfl⟩
  case caution => exact ⟨_, rfl, State.request_answers .caution [] fun _ => rfl⟩
  case green => exact ⟨_, rfl, State.request_answers .green [] fun _ => rfl⟩
  case pitOpen => exact ⟨_, rfl, State.request_answers .pitOpen [] fun _ => rfl⟩
  case pitClose => exact ⟨_, rfl, State.request_answers .pitClose [] fun _ => rfl⟩
  case zoneLock a b => exact ⟨_, rfl, State.request_answers .zoneLock [a, b] fun _ => rfl⟩
  case trackClear => exact ⟨_, rfl, State.request_answers .trackClear [] fun _ => rfl⟩
  case switchDisable a => exact ⟨_, rfl, State.request_answers .switchDisable [a] fun _ => rfl⟩
  case switchEnable a => exact ⟨_, rfl, State.request_answers .switchEnable [a] fun _ => rfl⟩
  case switchClear a => exact ⟨_, rfl, State.request_answers .switchClear [a] fun _ => rfl⟩
  case layoutRun => exact ⟨_, rfl, State.request_answers .layoutRun [] fun _ => rfl⟩
  case layoutEdit => exact ⟨_, rfl, State.request_answers .layoutEdit [] fun _ => rfl⟩
  case openPairing a => exact ⟨_, rfl, State.request_answers .openPairing [a] fun _ => rfl⟩
  case closePairing => exact ⟨_, rfl, State.request_answers .closePairing [] fun _ => rfl⟩
  case release a => exact ⟨_, rfl, State.request_answers .release [a] fun _ => rfl⟩
  case storeSave a => exact ⟨_, rfl, State.request_answers .storeSave [a] fun _ => rfl⟩

end Sys2Proof.Machine
end

section
/-! What every command but those of the Frame Sequencer keeps: track time, frame and queue of commands as they are, the lamps
and offers in order, and LAYOUT quiet (R11, R49, R115). -/

namespace Sys2Proof.Machine

-- One after the other, the proofs need no thread each.
set_option Elab.async false

/-- The move from s to t leaves the Frame Sequencer, the straps and the queue of commands, and keeps the lamps and offers in
order and LAYOUT quiet. -/
structure State.Orderly (s t : State) : Prop where
  seq : t.seq = s.seq
  rcs : t.rcs = s.rcs
  pending : t.pending = s.pending
  lamps : s.lampsAndOffersOk → t.lampsAndOffersOk
  quiet : s.layoutQuiet → t.layoutQuiet

/-- The invariant of LAYOUT, if it holds, puts the phase at RUN: something moves that LAYOUT forbids. -/
def State.outOfLayout (s : State) : Prop := s.layoutQuiet → s.geo.phase = .run

/-! ## How an orderly move is shown -/

theorem State.Orderly.refl (s : State) : s.Orderly s := ⟨rfl, rfl, rfl, id, id⟩

theorem State.Orderly.trans {s t u : State} (h : s.Orderly t) (g : t.Orderly u) : s.Orderly u :=
  ⟨g.seq.trans h.seq, g.rcs.trans h.rcs, g.pending.trans h.pending, g.lamps ∘ h.lamps, g.quiet ∘ h.quiet⟩

theorem State.Orderly.foldl {α : Type} {f : State → α → State} (h : ∀ (u : State) (a : α), u.Orderly (f u a)) (s : State)
    (l : List α) : s.Orderly (l.foldl f s) := by
  induction l generalizing s with
  | nil => exact .refl s
  | cons a as ih => exact (h s a).trans (ih (f s a))

/-- The lamps and offers are read from the course and the binding table alone. -/
theorem State.lampsAndOffersOk_of_eq {s t : State} (h : s.lampsAndOffersOk)
    (course : t.course.course = s.course.course := by simp) (lamps : t.course.lampCount = s.course.lampCount := by simp)
    (next : t.course.nextLamp = s.course.nextLamp := by simp) (window : t.binding.window = s.binding.window := by simp)
    (offers : t.binding.offers = s.binding.offers := by simp) : t.lampsAndOffersOk := by
  unfold State.lampsAndOffersOk at *
  rw [course, lamps, next, window, offers]
  exact h

/-- A move that leaves all that the invariants read. -/
theorem State.Orderly.of_blocks {s t : State} (seq : t.seq = s.seq := by simp) (rcs : t.rcs = s.rcs := by simp)
    (pending : t.pending = s.pending := by simp) (phase : t.geo.phase = s.geo.phase := by simp)
    (course : t.course.course = s.course.course := by simp) (lamps : t.course.lampCount = s.course.lampCount := by simp)
    (next : t.course.nextLamp = s.course.nextLamp := by simp) (window : t.binding.window = s.binding.window := by simp)
    (offers : t.binding.offers = s.binding.offers := by simp) (tracker : t.tracker = s.tracker := by simp)
    (lane : t.lane = { s.lane with intents := t.lane.intents } := by simp) : s.Orderly t := by
  refine ⟨seq, rcs, pending, fun h => State.lampsAndOffersOk_of_eq h course lamps next window offers, fun h => ?_⟩
  unfold State.layoutQuiet State.switch at *
  rw [phase, course, offers, tracker, lane]
  exact h

/-- A move out of LAYOUT that leaves the lamps and offers: whatever it does to cars and switches, LAYOUT has nothing to keep
quiet. -/
theorem State.Orderly.of_run {s t : State} (run : s.outOfLayout) (seq : t.seq = s.seq := by simp)
    (rcs : t.rcs = s.rcs := by simp) (pending : t.pending = s.pending := by simp)
    (phase : t.geo.phase = s.geo.phase := by simp) (course : t.course.course = s.course.course := by simp)
    (lamps : t.course.lampCount = s.course.lampCount := by simp) (next : t.course.nextLamp = s.course.nextLamp := by simp)
    (window : t.binding.window = s.binding.window := by simp) (offers : t.binding.offers = s.binding.offers := by simp) :
    s.Orderly t := by
  refine ⟨seq, rcs, pending, fun h => State.lampsAndOffersOk_of_eq h course lamps next window offers, fun h hl => ?_⟩
  rw [phase, run h] at hl
  cases hl

theorem State.portsOnly.orderly {s t : State} (h : s.portsOnly t) : s.Orderly t := by
  rw [h]
  exact .of_blocks

/-! ## What shows that the phase is RUN -/

theorem State.outOfLayout_of_phase {s : State} (h : s.geo.phase ≠ .layout) : s.outOfLayout := fun _ => by
  cases e : s.geo.phase with
  | layout => exact absurd e h
  | run => rfl

/-- Something that LAYOUT rules out shows that the phase is RUN. -/
theorem State.outOfLayout_of_not {s : State} (h : s.geo.phase = .layout → ¬ s.layoutQuiet) : s.outOfLayout := fun q =>
  State.outOfLayout_of_phase (fun e => h e q) q

theorem State.outOfLayout_of_course {s : State} (h : s.course.course ≠ .stop) : s.outOfLayout :=
  State.outOfLayout_of_not fun e q => by
    obtain ⟨stop, -⟩ := q e
    exact h stop

theorem State.outOfLayout_of_placed {s : State} {c : CarId} {pl : Placed} (h : s.tracker.cars[c].placed = some pl) :
    s.outOfLayout :=
  State.outOfLayout_of_not fun e q => by
    obtain ⟨-, cars, -⟩ := q e
    rw [(cars c).1] at h
    cases h

theorem State.outOfLayout_of_mode {s : State} {w : SwitchId} (h1 : (s.switch w).mode ≠ .ready)
    (h2 : (s.switch w).mode ≠ .disabled) : s.outOfLayout :=
  State.outOfLayout_of_not fun e q => by
    obtain ⟨-, -, -, switches, -⟩ := q e
    exact (switches w).1.elim h1 h2

theorem State.outOfLayout_of_claim {s : State} {w : SwitchId} {cl : Claim} (h : (s.switch w).mode.claim = some cl) :
    s.outOfLayout :=
  State.outOfLayout_of_mode (w := w) (fun e => by rw [e] at h; cases h) (fun e => by rw [e] at h; cases h)

theorem State.outOfLayout_of_hold {s : State} {w : SwitchId} (h : (s.switch w).holds ≠ []) : s.outOfLayout :=
  State.outOfLayout_of_not fun e q => by
    obtain ⟨-, -, -, switches, -⟩ := q e
    exact h (switches w).2

/-! ## Replies -/

theorem State.refuse_orderly (s : State) (p : PortId) (r : Reason) : s.Orderly (s.refuse p r) :=
  (s.modPort_portsOnly p _).orderly

theorem State.done_orderly (s : State) (p : PortId) (l : List Byte) : s.Orderly (s.done p l) :=
  (s.modPort_portsOnly p _).orderly

theorem State.offerWhere_orderly (s : State) (dest : PortId → Bool) (body : NoticeBody) :
    s.Orderly (s.offerWhere dest body) := (s.offerWhere_portsOnly dest body).orderly

theorem State.refuseRange_orderly (s : State) (p : PortId) (places : List Byte) : s.Orderly (s.refuseRange p places) := by
  unfold State.refuseRange
  split
  · exact s.refuse_orderly p _
  · exact .of_blocks

/-- A reserved request is refused or carried out (R114). -/
theorem State.reserved_orderly {s : State} {p : PortId} {op : State → State} (h : s.Orderly (op s)) :
    s.Orderly (s.reserved p op) := by
  unfold State.reserved
  split
  · exact h
  · exact s.refuse_orderly p _

/-! ## The course (R115 to R119, R122) -/

/-- A change of course is orderly when its lamps are those of the new course, and when it stops the race or LAYOUT is not
concerned. -/
theorem State.changeCourse_orderly {s : State} {new : Course} {lamps : Nat} {next : Option Time} (cause : CourseCause)
    (lit : s.lampsAndOffersOk → (new = .countdown → 1 ≤ lamps ∧ lamps ≤ 5 ∧ next ≠ none) ∧
      (new ≠ .countdown → lamps = 0 ∧ next = none))
    (run : new = .stop ∨ s.outOfLayout) : s.Orderly (s.changeCourse new lamps next cause) := by
  refine ⟨by simp, by simp, by simp, fun h => ?_, fun h hl => ?_⟩
  · have ok := lit h
    obtain ⟨-, -, offers⟩ := h
    unfold State.lampsAndOffersOk
    simp only [State.changeCourse_fields]
    exact ⟨ok.1, ok.2, offers⟩
  · obtain stop | run := run
    · obtain ⟨-, rest⟩ := h (by simpa using hl)
      simp only [State.changeCourse_fields]
      exact ⟨stop, rest⟩
    · have := run h
      simp [this] at hl

/-- Between courses without lamps, the lamps stay out. -/
theorem State.changeCourse_unlit_orderly {s : State} {new : Course} (cause : CourseCause)
    (old : s.course.course ≠ .stop ∧ s.course.course ≠ .countdown) (hn : new ≠ .countdown) :
    s.Orderly (s.changeCourse new s.course.lampCount s.course.nextLamp cause) :=
  State.changeCourse_orderly cause
    (fun ⟨_, unlit, _⟩ => ⟨fun e => absurd e hn, fun _ => unlit old.2⟩)
    (.inr (State.outOfLayout_of_course old.1))

theorem State.toCaution_orderly {s : State} (cause : CourseCause) (h : s.course.course = .green) :
    s.Orderly (s.toCaution cause) :=
  State.changeCourse_unlit_orderly cause (by rw [h]; decide) (by decide)

theorem State.toStop_orderly (s : State) (cause : CourseCause) : s.Orderly (s.toStop cause) :=
  State.changeCourse_orderly cause (fun _ => ⟨fun e => (by cases e), fun _ => ⟨rfl, rfl⟩⟩) (.inl rfl)

theorem State.faultReport_orderly (s : State) (w : SwitchId) : s.Orderly (s.faultReport w) := by
  obtain ⟨-, green, e⟩ | ⟨-, e⟩ := s.faultReport_cases w
  · rw [e]
    exact State.toCaution_orderly _ green
  · rw [e]
    exact .refl s

theorem State.announceFault_orderly (s : State) (w : SwitchId) (cause : FaultCause) (left : RunState) :
    s.Orderly (s.announceFault w cause left) := by
  have told := s.offerWhere_orderly (fun q => q == s.switchOwner w || s.hasRights q)
    (.switchFault w cause left (s.switch w).position)
  obtain e | e := s.announceFault_cases w cause left
  · rw [e]
    exact told
  · rw [e]
    exact told.trans (State.faultReport_orderly ..)

theorem State.reqStart_orderly (s : State) (p : PortId) : s.Orderly (s.reqStart p) :=
  State.reserved_orderly <| by
    split
    · exact s.refuse_orderly p _
    · split
      · exact s.refuse_orderly p _
      · next layout _ =>
        exact (State.changeCourse_orderly _
          (fun _ => ⟨fun _ => ⟨by decide, by decide, Option.some_ne_none _⟩, fun e => absurd rfl e⟩)
          (.inr (State.outOfLayout_of_phase layout))).trans (State.done_orderly ..)

theorem State.reqStop_orderly (s : State) (p : PortId) : s.Orderly (s.reqStop p) :=
  State.reserved_orderly <| by
    split
    · exact s.done_orderly p _
    · exact (s.toStop_orderly _).trans (State.done_orderly ..)

theorem State.reqCaution_orderly (s : State) (p : PortId) : s.Orderly (s.reqCaution p) :=
  State.reserved_orderly <| by
    split
    · exact s.refuse_orderly p _
    · exact s.refuse_orderly p _
    · next green => exact (State.toCaution_orderly _ green).trans (State.done_orderly ..)
    · exact s.done_orderly p _

theorem State.reqGreen_orderly (s : State) (p : PortId) : s.Orderly (s.reqGreen p) :=
  State.reserved_orderly <| by
    split
    · exact s.refuse_orderly p _
    · exact s.refuse_orderly p _
    · exact s.done_orderly p _
    · next caution =>
      exact (State.changeCourse_unlit_orderly _ (by rw [caution]; decide) (by decide)).trans (State.done_orderly ..)

/-- A marshal edge stops the race, or calls CAUTION out of GREEN, or changes nothing (Table 6-4). -/
theorem State.marshalEdge_orderly (s : State) (identity : Ident) (live : Bool) (code : LaneCode) (station : PortId) :
    s.Orderly (s.marshalEdge identity live code station) := by
  unfold State.marshalEdge
  simp only
  split
  · exact s.offerWhere_orderly ..
  · split
    case h_1 green => exact (State.toCaution_orderly _ green).trans (State.offerWhere_orderly ..)
    case h_6 | h_7 | h_8 => exact (s.toStop_orderly _).trans (State.offerWhere_orderly ..)
    all_goals exact s.offerWhere_orderly ..

/-! ## The pit, the locks, the settings and the geometry records -/

theorem State.reqPit_orderly (s : State) (p : PortId) (opened : Bool) : s.Orderly (s.reqPit p opened) :=
  State.reserved_orderly <| by
    split
    · exact s.done_orderly p _
    · exact .of_blocks

theorem State.reqZoneLock_orderly (s : State) (p : PortId) (zone lock : Byte) : s.Orderly (s.reqZoneLock p zone lock) :=
  State.reserved_orderly <| by
    split
    · split
      · exact s.refuseRange_orderly p _
      · simp only
        split
        · exact s.done_orderly p _
        · exact .of_blocks
    · exact s.refuseRange_orderly p _

theorem State.applyDone_orderly (s : State) (p : PortId) (ref : RecordRef) : s.Orderly (s.applyDone p ref) :=
  s.done_orderly p _

theorem State.applySettings_orderly (s : State) (p : PortId) (image : List Byte) : s.Orderly (s.applySettings p image) := by
  unfold State.applySettings
  split
  · exact s.refuse_orderly p _
  · exact .trans .of_blocks (State.applyDone_orderly ..)

theorem State.applyZone_orderly (s : State) (p : PortId) (z : ZoneId) (image : List Byte) :
    s.Orderly (s.applyZone p z image) := by
  unfold State.applyZone
  split
  · exact s.refuse_orderly p _
  · exact .trans .of_blocks (State.applyDone_orderly ..)

theorem State.applySwitch_orderly (s : State) (p : PortId) (w : SwitchId) (image : List Byte) :
    s.Orderly (s.applySwitch p w image) := by
  unfold State.applySwitch
  split
  · exact s.refuse_orderly p _
  · exact .trans .of_blocks (State.applyDone_orderly ..)

theorem State.applySensor_orderly (s : State) (p : PortId) (n : SensorId) (image : List Byte) :
    s.Orderly (s.applySensor p n image) := by
  unfold State.applySensor
  split
  · exact s.refuse_orderly p _
  · exact .trans .of_blocks (State.applyDone_orderly ..)

/-! ## Bindings, marshals and offers (R41, R45, R47, R49, R61) -/

/-- A rebinding moves intents alone of what the Lane Arbiter holds. -/
theorem State.carryIdentity_caps (s : State) (c : CarId) (old new : Option Ident) :
    (s.carryIdentity c old new).lane = { s.lane with intents := (s.carryIdentity c old new).lane.intents } := by
  by_cases h : old = new
  · rw [h, State.carryIdentity_same]
  · rw [State.carryIdentity_lane s c h]

theorem State.changeBinding_orderly (s : State) (c : CarId) (f : Binding → Binding) : s.Orderly (s.changeBinding c f) :=
  .of_blocks

theorem State.rebind_orderly (s : State) (c : CarId) (held : Option Held) (f : Binding → Binding) :
    s.Orderly (s.rebind c held f) :=
  .trans (.of_blocks (lane := State.carryIdentity_caps ..)) (State.changeBinding_orderly ..)

theorem State.moveBinding_orderly (s : State) (c : CarId) (source : HeldState → Bool) (target : HeldState) :
    s.Orderly (s.moveBinding c source target) := by
  obtain ⟨_, -, -, e⟩ | ⟨-, e⟩ := s.moveBinding_cases c source target
  · rw [e]
    exact s.changeBinding_orderly ..
  · rw [e]
    exact .refl s

@[simp] theorem State.flagMarshal_fields (s : State) (i : Ident) (flag : Bool) :
    (s.flagMarshal i flag).seq = s.seq ∧ (s.flagMarshal i flag).geo = s.geo ∧ (s.flagMarshal i flag).binding = s.binding ∧
    (s.flagMarshal i flag).tracker = s.tracker ∧ (s.flagMarshal i flag).lane = s.lane ∧
    (s.flagMarshal i flag).course = s.course ∧ (s.flagMarshal i flag).store = s.store ∧
    (s.flagMarshal i flag).ports = s.ports ∧ (s.flagMarshal i flag).rcs = s.rcs ∧
    (s.flagMarshal i flag).freeCount = s.freeCount ∧ (s.flagMarshal i flag).pending = s.pending := by
  unfold State.flagMarshal
  split <;> simp

@[simp] theorem State.carryMarshal_fields (s : State) (old new : Option Ident) :
    (s.carryMarshal old new).seq = s.seq ∧ (s.carryMarshal old new).geo = s.geo ∧
    (s.carryMarshal old new).binding = s.binding ∧ (s.carryMarshal old new).tracker = s.tracker ∧
    (s.carryMarshal old new).lane = s.lane ∧ (s.carryMarshal old new).course = s.course ∧
    (s.carryMarshal old new).store = s.store ∧ (s.carryMarshal old new).ports = s.ports ∧
    (s.carryMarshal old new).rcs = s.rcs ∧ (s.carryMarshal old new).freeCount = s.freeCount ∧
    (s.carryMarshal old new).pending = s.pending := by
  unfold State.carryMarshal
  split
  · simp
  · cases old <;> cases new <;> simp

theorem State.applyBinding_orderly (s : State) (p : PortId) (c : CarId) (image : List Byte) :
    s.Orderly (s.applyBinding p c image) := by
  unfold State.applyBinding
  split
  · exact s.refuse_orderly p _
  · split
    · exact s.refuse_orderly p _
    · split
      · exact s.refuse_orderly p _
      · exact (s.rebind_orderly ..).trans (State.applyDone_orderly ..)

theorem State.applyMarshal_orderly (s : State) (p : PortId) (m : MarshalId) (image : List Byte) :
    s.Orderly (s.applyMarshal p m image) := by
  unfold State.applyMarshal
  simp only
  split
  · exact s.refuse_orderly p _
  · exact .trans .of_blocks (State.applyDone_orderly ..)

theorem State.reqRelease_orderly (s : State) (p : PortId) (car : Byte) : s.Orderly (s.reqRelease p car) :=
  State.reserved_orderly <| by
    split
    · exact s.refuse_orderly p _
    · split
      · exact (s.rebind_orderly ..).trans (State.done_orderly ..)
      · exact s.done_orderly p _

/-- Offers that are taken away leave the list in order. -/
theorem State.modOffers_filter_orderly (s : State) (keep : Offer → Bool) :
    s.Orderly (s.modOffers fun l => l.filter keep) := by
  refine ⟨by simp, by simp, by simp, fun ⟨lit, unlit, short, nodup, closed⟩ => ?_, fun h hl => ?_⟩
  · unfold State.lampsAndOffersOk
    simp only [State.modOffers_fields]
    refine ⟨lit, unlit, (List.length_filter_le ..).trans short, nodup.sublist (List.filter_sublist.map _), fun e => ?_⟩
    rw [closed e, List.filter_nil]
  · obtain ⟨stop, cars, lists, switches, none⟩ := h (by simpa using hl)
    refine ⟨stop, cars, lists, switches, ?_⟩
    simp only [State.modOffers_fields]
    rw [none, List.filter_nil]

theorem State.closeWindow_orderly (s : State) : s.Orderly s.closeWindow := by
  refine ⟨by simp, by simp, by simp, fun ⟨lit, unlit, _⟩ => ?_, fun h hl => ?_⟩
  · unfold State.lampsAndOffersOk
    simp only [State.closeWindow_fields]
    exact ⟨lit, unlit, by simp, by simp, fun _ => trivial⟩
  · obtain ⟨stop, cars, lists, switches, -⟩ := h (by simpa using hl)
    exact ⟨stop, cars, lists, switches, rfl⟩

theorem State.reqOpenPairing_orderly (s : State) (p : PortId) (seconds : Byte) :
    s.Orderly (s.reqOpenPairing p seconds) :=
  State.reserved_orderly <| by
    split
    · exact s.refuse_orderly p _
    · split
      · exact s.refuse_orderly p _
      · refine ⟨by simp, by simp, by simp, fun ⟨lit, unlit, short, nodup, _⟩ => ?_, fun h => h⟩
        exact ⟨lit, unlit, short, nodup, fun e => by simp at e⟩

theorem State.reqClosePairing_orderly (s : State) (p : PortId) : s.Orderly (s.reqClosePairing p) :=
  State.reserved_orderly <| by
    split
    · exact s.closeWindow_orderly.trans (State.done_orderly ..)
    · exact s.done_orderly p _

/-! ## PAIR edges (R51 to R55) -/

theorem State.announcePair_orderly (s : State) (station : PortId) (identity : Ident) (result : PairResult)
    (c : Option CarId) : s.Orderly (s.announcePair station identity result c) := s.offerWhere_orderly ..

theorem State.pairWith_orderly (s : State) (identity : Ident) (o : Offer) : s.Orderly (s.pairWith identity o) := by
  unfold State.pairWith
  refine .trans ?_ (.trans (State.rebind_orderly ..) (State.modOffers_filter_orderly ..))
  cases s.carOf identity with
  | none => exact .refl s
  | some old => exact s.rebind_orderly ..

theorem State.pairEdge_orderly (s : State) (identity : Ident) (marshal : Bool) (station : PortId) (strength : BitVec 4) :
    s.Orderly (s.pairEdge identity marshal station strength) := by
  unfold State.pairEdge
  split
  · exact s.announcePair_orderly ..
  · split
    · exact .refl s
    · split
      · exact s.announcePair_orderly ..
      · split
        · exact s.announcePair_orderly ..
        · split
          · exact (s.modOffers_filter_orderly _).trans (State.announcePair_orderly ..)
          · exact (s.pairWith_orderly ..).trans (State.announcePair_orderly ..)

/-! ## Handset reports and the expiries of a record (R26 to R32) -/

theorem State.announceLink_orderly (s : State) (r : Handset) : s.Orderly (s.announceLink r) := by
  unfold State.announceLink
  cases s.holderOf r with
  | none => exact .refl s
  | some holder => exact s.offerWhere_orderly ..

theorem State.handLive_orderly (s : State) (r : Handset) : s.Orderly (s.handLive r) := by
  unfold State.handLive
  refine .trans ?_ (State.announceLink_orderly ..)
  cases r.boundCar with
  | none => exact .refl s
  | some c => exact s.moveBinding_orderly c (· != .bound) .bound

theorem State.handLost_orderly (s : State) (r : Handset) : s.Orderly (s.handLost r) := by
  unfold State.handLost
  refine .trans ?_ (State.announceLink_orderly ..)
  cases r.boundCar with
  | none => exact .refl s
  | some c => exact s.moveBinding_orderly c (· == .bound) .suspended

theorem State.laneEdge_orderly (s : State) (identity : Ident) (code : LaneCode) : s.Orderly (s.laneEdge identity code) := by
  unfold State.laneEdge
  split
  · split
    · exact .of_blocks
    · exact .refl s
  · exact .refl s

theorem State.handEdge_orderly (s : State) (r : Handset) (station : PortId) (strength : BitVec 4) :
    s.Orderly (s.handEdge r station strength) := by
  unfold State.handEdge
  split
  · exact s.pairEdge_orderly ..
  · split
    · split
      · exact s.marshalEdge_orderly ..
      · exact s.laneEdge_orderly ..
    · exact .refl s

theorem State.modHandset_orderly (s : State) (h : HandsetId) (f : Handset → Handset) : s.Orderly (s.modHandset h f) :=
  .of_blocks

theorem State.moveLink_orderly (s : State) (h : HandsetId) (r : Handset) (link : LinkState) :
    s.Orderly (s.moveLink h r link) := by
  unfold State.moveLink
  split
  · exact .refl s
  · simp only
    split
    · exact (s.modHandset_orderly ..).trans (State.handLive_orderly ..)
    · exact s.modHandset_orderly ..

theorem State.batteryStep_orderly (s : State) (r : Handset) (wasLow : Bool) : s.Orderly (s.batteryStep r wasLow) := by
  unfold State.batteryStep
  split
  · exact .refl s
  · exact s.offerWhere_orderly ..

theorem State.validate_orderly (s : State) (h : HandsetId) (rep : Report) (p : PortId) :
    s.Orderly (s.validate h rep p) := by
  unfold State.validate
  split
  · simp only
    split
    · exact (s.modHandset_orderly ..).trans (State.handEdge_orderly ..)
    · exact s.modHandset_orderly ..
  · exact .refl s

theorem State.acceptReport_orderly (s : State) (p : PortId) (h : HandsetId) (old : Handset) (rep : Report)
    (link : LinkState) : s.Orderly (s.acceptReport p h old rep link) :=
  (s.modHandset_orderly ..).trans <| (State.moveLink_orderly ..).trans <| (State.batteryStep_orderly ..).trans <|
    (State.validate_orderly ..).trans (State.done_orderly ..)

theorem State.firstReport_orderly (s : State) (p : PortId) (rep : Report) : s.Orderly (s.firstReport p rep) := by
  unfold State.firstReport
  split
  · exact .trans .of_blocks (State.acceptReport_orderly ..)
  · split
    · exact .trans .of_blocks (State.done_orderly ..)
    · exact s.done_orderly ..

theorem State.knownReport_orderly (s : State) (p : PortId) (h : HandsetId) (r : Handset) (rep : Report) :
    s.Orderly (s.knownReport p h r rep) := by
  unfold State.knownReport
  simp only
  split
  case h_1 | h_2 => exact s.acceptReport_orderly ..
  case h_3 | h_4 =>
    split
    · exact (s.modHandset_orderly ..).trans (State.done_orderly ..)
    · split
      · exact (s.modHandset_orderly ..).trans (State.done_orderly ..)
      · exact s.acceptReport_orderly ..

theorem State.reqReportHandset_orderly (s : State) (p : PortId) (identity : Ident)
    (count throttle code battery strength : Byte) :
    s.Orderly (s.reqReportHandset p identity count throttle code battery strength) := by
  unfold State.reqReportHandset State.filterReport
  simp only
  split
  · split
    · next h _ =>
      cases s.handsets.records[h] with
      | none => exact .refl s
      | some r => exact s.knownReport_orderly ..
    · exact s.firstReport_orderly ..
  · exact s.refuseRange_orderly ..

theorem State.freeIfForsaken_orderly (s : State) (h : HandsetId) : s.Orderly (s.freeIfForsaken h) := .of_blocks

theorem execStaleExpiry_orderly (h : HandsetId) (s : State) : ∃ t : State, execStaleExpiry h s = .next t ∧ s.Orderly t := by
  unfold execStaleExpiry
  split
  · simp only
    split
    · exact ⟨_, rfl, (s.modHandset_orderly ..).trans (State.announceLink_orderly ..)⟩
    · exact ⟨_, rfl, .refl s⟩
  · exact ⟨_, rfl, .refl s⟩

theorem execHandsetLostExpiry_orderly (h : HandsetId) (s : State) :
    ∃ t : State, execHandsetLostExpiry h s = .next t ∧ s.Orderly t := by
  unfold execHandsetLostExpiry
  split
  · simp only
    split
    · exact ⟨_, rfl, (s.modHandset_orderly ..).trans <|
        (State.handLost_orderly ..).trans (State.freeIfForsaken_orderly ..)⟩
    · exact ⟨_, rfl, .refl s⟩
  · exact ⟨_, rfl, .refl s⟩

/-! ## Decisions at a sensor (R86 to R93) -/

@[simp] theorem State.decidePassage_fields (s : State) (c : CarId) (w : SwitchId) :
    (s.decidePassage c w).seq = s.seq ∧ (s.decidePassage c w).geo = s.geo ∧
    (s.decidePassage c w).handsets = s.handsets ∧ (s.decidePassage c w).binding = s.binding ∧
    (s.decidePassage c w).course = s.course ∧ (s.decidePassage c w).store = s.store ∧
    (s.decidePassage c w).rcs = s.rcs ∧ (s.decidePassage c w).freeCount = s.freeCount ∧
    (s.decidePassage c w).pending = s.pending := by
  unfold State.decidePassage
  split
  · simp
  · split <;> simp

@[simp] theorem State.decideExit_fields (s : State) (c : CarId) (w : SwitchId) :
    (s.decideExit c w).seq = s.seq ∧ (s.decideExit c w).geo = s.geo ∧
    (s.decideExit c w).handsets = s.handsets ∧ (s.decideExit c w).binding = s.binding ∧
    (s.decideExit c w).course = s.course ∧ (s.decideExit c w).store = s.store ∧
    (s.decideExit c w).rcs = s.rcs ∧ (s.decideExit c w).freeCount = s.freeCount ∧
    (s.decideExit c w).pending = s.pending := by
  unfold State.decideExit
  split
  · split <;> simp
  · simp

/-- A decision touches the tracker, the lane and the queues alone. -/
@[simp] theorem State.decideEntry_fields (s : State) (c : CarId) (w : SwitchId) :
    (s.decideEntry c w).seq = s.seq ∧ (s.decideEntry c w).geo = s.geo ∧
    (s.decideEntry c w).handsets = s.handsets ∧ (s.decideEntry c w).binding = s.binding ∧
    (s.decideEntry c w).course = s.course ∧ (s.decideEntry c w).store = s.store ∧
    (s.decideEntry c w).rcs = s.rcs ∧ (s.decideEntry c w).freeCount = s.freeCount ∧
    (s.decideEntry c w).pending = s.pending := by
  unfold State.decideEntry
  simp only
  split
  · simp
  · split
    · simp
    · split <;> simp

@[simp] theorem State.recheckHead_fields (s : State) (w : SwitchId) (head : Hold) :
    (s.recheckHead w head).seq = s.seq ∧ (s.recheckHead w head).geo = s.geo ∧
    (s.recheckHead w head).handsets = s.handsets ∧ (s.recheckHead w head).binding = s.binding ∧
    (s.recheckHead w head).course = s.course ∧ (s.recheckHead w head).store = s.store ∧
    (s.recheckHead w head).rcs = s.rcs ∧ (s.recheckHead w head).freeCount = s.freeCount ∧
    (s.recheckHead w head).pending = s.pending := by
  unfold State.recheckHead
  split
  · simp
  · split <;> simp

theorem execPitExitRecheck_orderly (w : SwitchId) (s : State) :
    ∃ t : State, execPitExitRecheck w s = .next t ∧ s.Orderly t := by
  unfold execPitExitRecheck
  split
  · next head _ _ held _ =>
    split
    · exact ⟨_, rfl, .of_run (State.outOfLayout_of_hold (w := w) (by rw [held]; simp))⟩
    · exact ⟨_, rfl, .refl s⟩
  · exact ⟨_, rfl, .refl s⟩
  · exact ⟨_, rfl, .refl s⟩

/-! ## Crossings (R66 to R75) -/

@[simp] theorem State.handOn_fields (s : State) (n : SensorId) (z : ZoneId) (w : Option SwitchId) (c : CarId)
    (stamp : Time) :
    (s.handOn n z w c stamp).seq = s.seq ∧ (s.handOn n z w c stamp).geo = s.geo ∧
    (s.handOn n z w c stamp).handsets = s.handsets ∧ (s.handOn n z w c stamp).binding = s.binding ∧
    (s.handOn n z w c stamp).course = s.course ∧ (s.handOn n z w c stamp).store = s.store ∧
    (s.handOn n z w c stamp).rcs = s.rcs ∧ (s.handOn n z w c stamp).freeCount = s.freeCount ∧
    (s.handOn n z w c stamp).pending = s.pending := by
  unfold State.handOn
  cases w <;> simp

/-- A list of offers that a pairing crossing joins stays in order (R49). -/
theorem joinOffers_ok {l : List Offer} (o : Offer) (short : l.length ≤ 4) (nodup : (l.map (·.car)).Nodup) :
    (joinOffers l o).length ≤ 4 ∧ ((joinOffers l o).map (·.car)).Nodup := by
  unfold joinOffers
  split
  · next held =>
    obtain ⟨q, hq, hc⟩ := List.any_eq_true.1 held
    have fewer : (l.filter (·.car != o.car)).length < l.length :=
      List.length_filter_lt_length_iff_exists.2 ⟨q, hq, by simpa using hc⟩
    refine ⟨by simp; omega, ?_⟩
    rw [List.map_append, List.nodup_append]
    refine ⟨nodup.sublist (List.filter_sublist.map _), by simp, ?_⟩
    simp only [List.mem_map, List.mem_filter, bne_iff_ne, List.mem_singleton, List.map_cons, List.map_nil]
    rintro _ ⟨a, ⟨-, other⟩, rfl⟩ _ rfl
    exact other
  · next fresh =>
    have new : ∀ a ∈ l, a.car ≠ o.car := by simpa using fresh
    split
    · refine ⟨by simp; omega, ?_⟩
      rw [List.map_append, List.nodup_append]
      refine ⟨nodup.sublist ((List.tail_sublist l).map _), by simp, ?_⟩
      simp only [List.mem_map, List.mem_singleton, List.map_cons, List.map_nil]
      rintro _ ⟨a, ha, rfl⟩ _ rfl
      exact new a (List.mem_of_mem_tail ha)
    · refine ⟨by simp; omega, ?_⟩
      rw [List.map_append, List.nodup_append]
      exact ⟨nodup, by simp, by simpa using new⟩

theorem State.pairingCrossing_orderly {s : State} (run : s.outOfLayout) (p : PortId) (n : SensorId) (c : CarId)
    (stamp : Time) : s.Orderly (s.pairingCrossing p n c stamp) := by
  unfold State.pairingCrossing
  split
  · next opened =>
    refine .trans ?_ (State.done_orderly ..)
    refine ⟨by simp, by simp, by simp, fun ⟨lit, unlit, short, nodup, _⟩ => ?_, fun h hl => ?_⟩
    · obtain ⟨short', nodup'⟩ := joinOffers_ok (Offer.mk c n stamp) short nodup
      exact ⟨lit, unlit, short', nodup', fun e => by simp at e; simp [e] at opened⟩
    · simp [run h] at hl
  · exact s.done_orderly ..

theorem State.trackCrossing_orderly {s : State} (run : s.outOfLayout) (p : PortId) (n : SensorId) (z : ZoneId)
    (w : Option SwitchId) (c : CarId) (stamp : Time) : s.Orderly (s.trackCrossing p n z w c stamp) := by
  unfold State.trackCrossing
  split
  · exact s.done_orderly ..
  · split
    · exact (s.offerWhere_orderly ..).trans (State.done_orderly ..)
    · exact .trans (.of_run run) (State.done_orderly ..)

theorem State.reqReportCrossing_orderly (s : State) (p : PortId) (sensor car age : Byte) :
    s.Orderly (s.reqReportCrossing p sensor car age) := by
  unfold State.reqReportCrossing
  split
  · exact s.refuse_orderly ..
  · next layout =>
    have run := State.outOfLayout_of_phase layout
    split
    · exact s.refuse_orderly ..
    · split
      · exact s.refuse_orderly ..
      · split
        · exact s.refuse_orderly ..
        · simp only
          split
          · exact State.pairingCrossing_orderly run ..
          · exact State.trackCrossing_orderly run ..
          · exact State.trackCrossing_orderly run ..

theorem execStall_orderly (c : CarId) (s : State) : ∃ t : State, execStall c s = .next t ∧ s.Orderly t := by
  unfold execStall
  split
  · next placed =>
    split
    · exact ⟨_, rfl, .of_run (State.outOfLayout_of_placed placed)⟩
    · exact ⟨_, rfl, .refl s⟩
  · exact ⟨_, rfl, .refl s⟩

/-! ## Switch reports and deadlines (R97 to R105) -/

theorem State.takeThrown_orderly {s : State} (run : s.outOfLayout) (p : PortId) (w : SwitchId) :
    s.Orderly (s.takeThrown p w) := by
  unfold State.takeThrown
  split
  · exact .of_run run
  all_goals exact s.refuse_orderly ..

theorem State.takeReturned_orderly {s : State} (run : s.outOfLayout) (p : PortId) (w : SwitchId) :
    s.Orderly (s.takeReturned p w) := by
  unfold State.takeReturned
  split
  case h_1 | h_2 | h_3 => exact .of_run run
  all_goals exact s.refuse_orderly ..

theorem State.takeJammed_orderly {s : State} (run : s.outOfLayout) (p : PortId) (w : SwitchId) (position : Position) :
    s.Orderly (s.takeJammed p w position) := by
  unfold State.takeJammed
  simp only
  refine .trans ?_ (.trans (State.announceFault_orderly ..) (State.done_orderly ..))
  split <;> exact .of_run run

theorem State.reqReportSwitch_orderly (s : State) (p : PortId) (switch kind position : Byte) :
    s.Orderly (s.reqReportSwitch p switch kind position) := by
  unfold State.reqReportSwitch
  split
  · exact s.refuse_orderly ..
  · next layout =>
    have run := State.outOfLayout_of_phase layout
    split
    · exact s.refuse_orderly ..
    · split
      · exact s.refuse_orderly ..
      · split
        · exact State.takeThrown_orderly run ..
        · split
          · exact State.takeReturned_orderly run ..
          · split
            · cases positionOf position with
              | none => exact s.refuse_orderly ..
              | some place => exact State.takeJammed_orderly run ..
            · exact s.refuse_orderly ..

theorem State.restoreSwitch_orderly {s : State} (run : s.outOfLayout) (w : SwitchId) (cl : Claim) :
    s.Orderly (s.restoreSwitch w cl) := by
  unfold State.restoreSwitch
  split
  · exact .trans (.of_run run) (State.announceFault_orderly ..)
  · exact .of_run run

theorem execActuationDeadline_orderly (w : SwitchId) (s : State) :
    ∃ t : State, execActuationDeadline w s = .next t ∧ s.Orderly t := by
  unfold execActuationDeadline
  split
  · next d cl moving =>
    have run : s.outOfLayout := State.outOfLayout_of_claim (w := w) (cl := cl) (by rw [moving]; rfl)
    split
    · exact ⟨_, rfl, .trans (.of_run run) (State.announceFault_orderly ..)⟩
    · exact ⟨_, rfl, .refl s⟩
  all_goals exact ⟨_, rfl, .refl s⟩

theorem execHoldDeadline_orderly (w : SwitchId) (s : State) :
    ∃ t : State, execHoldDeadline w s = .next t ∧ s.Orderly t := by
  unfold execHoldDeadline
  split
  · next d cl moving =>
    have run : s.outOfLayout := State.outOfLayout_of_claim (w := w) (cl := cl) (by rw [moving]; rfl)
    split
    · exact ⟨_, rfl, State.restoreSwitch_orderly run ..⟩
    · exact ⟨_, rfl, .refl s⟩
  all_goals exact ⟨_, rfl, .refl s⟩

theorem execRestoringActuationDeadline_orderly (w : SwitchId) (s : State) :
    ∃ t : State, execRestoringActuationDeadline w s = .next t ∧ s.Orderly t := by
  unfold execRestoringActuationDeadline
  split
  · next d moving =>
    have run : s.outOfLayout := State.outOfLayout_of_mode (w := w) (by rw [moving]; simp) (by rw [moving]; simp)
    split
    · exact ⟨_, rfl, .trans (.of_run run) (State.announceFault_orderly ..)⟩
    · exact ⟨_, rfl, .refl s⟩
  all_goals exact ⟨_, rfl, .refl s⟩

/-! ## Switch requests, caps and intents (R84, R107, R109) -/

/-- A switch request leaves its switch READY or DISABLED (Table 5-7). -/
theorem switchRequestEffect_rests {r : SwitchRequest} {st : SwitchState} {mode : SwitchMode} {position : Position}
    (h : switchRequestEffect r st = some (mode, position)) : mode = .ready ∨ mode = .disabled := by
  unfold switchRequestEffect at h
  split at h
  case h_1 => exact .inr (congrArg Prod.fst (Option.some.inj h)).symm
  case h_2 | h_3 => exact .inl (congrArg Prod.fst (Option.some.inj h)).symm
  case h_4 => cases h

/-- A switch that comes to rest READY or DISABLED leaves LAYOUT quiet. -/
theorem State.restSwitch_orderly {s : State} {mode : SwitchMode} (h : mode = .ready ∨ mode = .disabled) (w : SwitchId)
    (position : Position) : s.Orderly (s.restSwitch w mode position) := by
  refine ⟨by simp, by simp, by simp, State.lampsAndOffersOk_of_eq, fun q hl => ?_⟩
  obtain ⟨stop, cars, lists, switches, offers⟩ := q (by simpa using hl)
  simp only [State.restSwitch_fields, State.endBusyCaps_fields, State.setSwitch_fields, State.restSwitch_switch]
  refine ⟨stop, fun c => ?_, lists, fun k => ?_, offers⟩
  · obtain ⟨placed, conflict, busy, pit⟩ := cars c
    rw [mapAll_get, busy]
    exact ⟨placed, conflict, rfl, pit⟩
  · split
    · exact ⟨h, (switches k).2⟩
    · exact switches k

theorem State.reqSwitch_orderly (s : State) (p : PortId) (r : SwitchRequest) (switch : Byte) :
    s.Orderly (s.reqSwitch p r switch) :=
  State.reserved_orderly <| by
    split
    · exact s.refuse_orderly ..
    · split
      · exact s.refuse_orderly ..
      · next effect =>
        exact (State.restSwitch_orderly (switchRequestEffect_rests effect) ..).trans <|
          (State.offerWhere_orderly ..).trans (State.done_orderly ..)

theorem execIntentExpiry_orderly (c : CarId) (s : State) : ∃ t : State, execIntentExpiry c s = .next t ∧ s.Orderly t := by
  unfold execIntentExpiry
  split
  · exact ⟨_, rfl, .of_blocks⟩
  · exact ⟨_, rfl, .refl s⟩

/-- Only a car that holds a CONFLICT cap loses one, and in LAYOUT none does. -/
theorem execConflictCapEnd_orderly (c : CarId) (s : State) :
    ∃ t : State, execConflictCapEnd c s = .next t ∧ s.Orderly t := by
  unfold execConflictCapEnd
  split
  · next due =>
    refine ⟨_, rfl, .of_run (State.outOfLayout_of_not fun e q => ?_)⟩
    obtain ⟨-, cars, -⟩ := q e
    rw [(cars c).2.1] at due
    cases due
  · exact ⟨_, rfl, .refl s⟩

/-! ## Track clear and the layout phase (R12, R16, R79, R110, R126) -/

theorem State.clearPositions_cars (s : State) (c : CarId) :
    s.clearPositions.tracker.cars[c] = { s.tracker.cars[c] with placed := none, stallDeadline := none } := by
  unfold State.clearPositions
  rw [mapAll_get]

theorem State.clearPositions_lists (s : State) (z : ZoneId) : s.clearPositions.tracker.lists[z] = [] := by
  unfold State.clearPositions
  rw [mapAll_get]

theorem State.forgetPositions_cars (s : State) (c : CarId) :
    s.forgetPositions.tracker.cars[c] = CarRecord.mk none none 0 none := by
  unfold State.forgetPositions
  rw [mapAll_get, State.clearPositions_cars]

theorem State.forgetPositions_lists (s : State) (z : ZoneId) : s.forgetPositions.tracker.lists[z] = [] :=
  s.clearPositions_lists z

theorem State.clearLane_caps (s : State) (c : CarId) :
    s.clearLane.lane.intents[c] = none ∧ s.clearLane.lane.conflictCaps[c] = none ∧
      s.clearLane.lane.busyCaps[c] = none ∧ s.clearLane.lane.pitHolds[c] = none := by
  unfold State.clearLane
  simp only [mapAll_get, and_self]

theorem State.clearLane_switch (s : State) (w : SwitchId) :
    s.clearLane.switch w = { s.switch w with holds := [], recheck := none } := by
  unfold State.clearLane State.switch
  rw [mapAll_get]

theorem State.readySwitches_switch (s : State) (w : SwitchId) :
    s.readySwitches.switch w = { s.switch w with mode := .ready, position := .normal } := by
  unfold State.readySwitches State.switch
  rw [mapAll_get]

theorem State.clearPositions_orderly (s : State) : s.Orderly s.clearPositions := by
  refine ⟨by simp, by simp, by simp, State.lampsAndOffersOk_of_eq, fun q hl => ?_⟩
  obtain ⟨stop, cars, -, switches, offers⟩ := q (by simpa using hl)
  unfold State.switch at *
  simp only [State.clearPositions_fields, State.clearPositions_cars, State.clearPositions_lists]
  exact ⟨stop, fun c => ⟨trivial, (cars c).2⟩, fun _ => trivial, switches, offers⟩

theorem State.clearLane_orderly (s : State) : s.Orderly s.clearLane := by
  refine ⟨by simp, by simp, by simp, State.lampsAndOffersOk_of_eq, fun q hl => ?_⟩
  obtain ⟨stop, cars, lists, switches, offers⟩ := q (by simpa using hl)
  simp only [State.clearLane_fields, State.clearLane_caps, State.clearLane_switch, and_self]
  exact ⟨stop, fun c => ⟨(cars c).1, trivial⟩, lists, fun w => ⟨(switches w).1, trivial⟩, offers⟩

theorem State.clearSwitch_orderly (s : State) (w : SwitchId) : s.Orderly (s.clearSwitch w) := by
  unfold State.clearSwitch
  split
  · next claimed => exact State.restoreSwitch_orderly (State.outOfLayout_of_claim claimed) ..
  · exact .refl s

theorem State.reqTrackClear_orderly (s : State) (p : PortId) : s.Orderly (s.reqTrackClear p) :=
  State.reserved_orderly <| by
    split
    · exact s.refuse_orderly ..
    · have cleared := s.clearPositions_orderly.trans <| s.clearPositions.clearLane_orderly.trans <|
        State.Orderly.foldl State.clearSwitch_orderly s.clearPositions.clearLane (List.finRange 32)
      simp only
      generalize (List.finRange 32).foldl State.clearSwitch s.clearPositions.clearLane = u at cleared
      exact cleared.trans ((u.offerWhere_orderly ..).trans (State.done_orderly ..))

/-- LAYOUT RUN leaves LAYOUT, of which nothing is asked then. -/
theorem State.reqLayoutRun_orderly (s : State) (p : PortId) : s.Orderly (s.reqLayoutRun p) :=
  State.reserved_orderly <| by
    split
    · exact s.refuse_orderly ..
    · split
      · exact s.refuse_orderly ..
      · exact s.refuse_orderly ..
      · refine .trans ⟨by simp, by simp, by simp, State.lampsAndOffersOk_of_eq, fun _ hl => ?_⟩ (State.done_orderly ..)
        simp at hl

/-- The state that a layout edit makes of s, before its notice (R16, R80). -/
def State.edited (s : State) : State := s.forgetPositions.clearLane.readySwitches.modOffers fun _ => []

@[simp] theorem State.edited_fields (s : State) :
    s.edited.seq = s.seq ∧ s.edited.geo = s.geo ∧ s.edited.handsets = s.handsets ∧
    s.edited.binding = { s.binding with offers := [] } ∧ s.edited.course = s.course ∧ s.edited.store = s.store ∧
    s.edited.ports = s.ports ∧ s.edited.rcs = s.rcs ∧ s.edited.freeCount = s.freeCount ∧
    s.edited.pending = s.pending := by
  simp [State.edited]

theorem State.edited_cars (s : State) (c : CarId) : s.edited.tracker.cars[c] = CarRecord.mk none none 0 none := by
  simpa [State.edited] using s.forgetPositions_cars c

theorem State.edited_lists (s : State) (z : ZoneId) : s.edited.tracker.lists[z] = [] := by
  simpa [State.edited] using s.forgetPositions_lists z

theorem State.edited_caps (s : State) (c : CarId) :
    s.edited.lane.intents[c] = none ∧ s.edited.lane.conflictCaps[c] = none ∧
      s.edited.lane.busyCaps[c] = none ∧ s.edited.lane.pitHolds[c] = none := by
  simpa [State.edited] using s.forgetPositions.clearLane_caps c

theorem State.edited_switch (s : State) (w : SwitchId) : s.edited.switch w = SwitchState.mk .ready .normal [] none := by
  have e : s.edited.switch w = s.forgetPositions.clearLane.readySwitches.switch w := State.switch_eq (by simp [State.edited]) w
  rw [e, State.readySwitches_switch, State.clearLane_switch]

theorem State.reqLayoutEdit_orderly (s : State) (p : PortId) : s.Orderly (s.reqLayoutEdit p) :=
  State.reserved_orderly <| by
    split
    · exact s.refuse_orderly ..
    · split
      · exact s.refuse_orderly ..
      · split
        · exact s.refuse_orderly ..
        · next stop _ =>
          change s.Orderly ((s.edited.changePhase .layout).done p [])
          have switches : ∀ w : SwitchId, (s.edited.changePhase .layout).switch w = s.edited.switch w :=
            State.switch_eq (by simp)
          refine .trans ⟨by simp, by simp, by simp, fun ⟨lit, unlit, _⟩ => ?_, fun _ _ => ?_⟩ (State.done_orderly ..)
          · unfold State.lampsAndOffersOk
            simp only [State.changePhase_fields, State.edited_fields]
            exact ⟨lit, unlit, by simp, by simp, fun _ => trivial⟩
          · simp only [switches, State.changePhase_fields, State.edited_fields, State.edited_cars, State.edited_lists,
              State.edited_caps, State.edited_switch, and_self]
            exact ⟨by simpa using stop, fun _ => trivial, fun _ => trivial, fun _ => ⟨.inl trivial, trivial⟩, trivial⟩

end Sys2Proof.Machine
end

section
/-! Every command moves the state in order, those of the Frame Sequencer keep the rail frame in step besides (R131, R133,
R134), and so every step keeps the invariants of course, layout and rail frame. -/

namespace Sys2Proof.Machine

-- One after the other, the proofs need no thread each.
set_option Elab.async false

/-! ## Staging and the Bind Store -/

theorem State.setStaging_orderly (s : State) (p : PortId) (staging : Option Staging) :
    s.Orderly (s.setStaging p staging) := (s.modPort_portsOnly p _).orderly

theorem State.applyRecord_orderly (s : State) (p : PortId) (ref : RecordRef) (image : List Byte) :
    s.Orderly (s.applyRecord p ref image) := by
  cases ref with
  | zone z => exact s.applyZone_orderly ..
  | switch w => exact s.applySwitch_orderly ..
  | sensor n => exact s.applySensor_orderly ..
  | binding c => exact s.applyBinding_orderly ..
  | marshal m => exact s.applyMarshal_orderly ..
  | settings => exact s.applySettings_orderly ..
  | handset h => exact s.refuse_orderly ..
  | car c => exact s.refuse_orderly ..

theorem State.applyStaged_orderly (s : State) (p : PortId) (st : Staging) : s.Orderly (s.applyStaged p st) := by
  unfold State.applyStaged
  simp only
  refine (s.setStaging_orderly p none).trans ?_
  generalize s.setStaging p none = u
  split
  · exact u.refuse_orderly ..
  · split
    · exact u.refuse_orderly ..
    · split
      · exact u.refuse_orderly ..
      · split
        · exact u.refuse_orderly ..
        · exact u.applyRecord_orderly ..

theorem State.reqApply_orderly (s : State) (p : PortId) : s.Orderly (s.reqApply p) := by
  unfold State.reqApply
  split
  · exact s.refuse_orderly ..
  · exact s.applyStaged_orderly ..

theorem State.reqPut_orderly (s : State) (p : PortId) (values : List Byte) : s.Orderly (s.reqPut p values) := by
  unfold State.reqPut
  split
  · exact s.refuse_orderly ..
  · simp only
    split
    · exact (s.setStaging_orderly p none).trans (State.refuse_orderly ..)
    · split
      · exact (s.setStaging_orderly p none).trans (State.refuse_orderly ..)
      · exact .of_blocks
      · split
        · exact s.applyStaged_orderly ..
        · exact (s.setStaging_orderly p _).trans (State.done_orderly ..)

theorem State.reqSelect_orderly (s : State) (p : PortId) (table index : Byte) : s.Orderly (s.reqSelect p table index) := by
  unfold State.reqSelect
  split
  · exact s.refuse_orderly ..
  · exact (s.modPort_portsOnly p _).orderly.trans (State.done_orderly ..)

theorem State.reqFetch_orderly (s : State) (p : PortId) : s.Orderly (s.reqFetch p) := by
  unfold State.reqFetch
  split
  · exact s.refuse_orderly ..
  · exact (s.modPort_portsOnly p _).orderly.trans (State.done_orderly ..)

theorem State.reqTake_orderly (s : State) (p : PortId) : s.Orderly (s.reqTake p) := by
  unfold State.reqTake
  split
  · exact s.done_orderly ..
  · exact (s.modPort_portsOnly p _).orderly.trans (State.done_orderly ..)

theorem State.reqPortStatus_orderly (s : State) (p : PortId) : s.Orderly (s.reqPortStatus p) :=
  (s.modPort_portsOnly p _).orderly.trans (State.done_orderly ..)

theorem State.reqPortSet_orderly (s : State) (p : PortId) (attentionLevel shedLevel : Byte) :
    s.Orderly (s.reqPortSet p attentionLevel shedLevel) := by
  unfold State.reqPortSet
  split
  · exact (s.modPort_portsOnly p _).orderly.trans (State.done_orderly ..)
  · exact s.refuseRange_orderly ..

theorem State.startCommit_orderly (s : State) (r : RowId) (origin : Origin) : s.Orderly (s.startCommit r origin) :=
  .of_blocks

theorem State.chooseCommit_orderly (s : State) : s.Orderly s.chooseCommit := by
  unfold State.chooseCommit
  cases s.autoChoice with
  | none => exact .refl s
  | some r => exact s.startCommit_orderly r .auto

theorem State.reqStoreSave_orderly (s : State) (p : PortId) (row : Byte) : s.Orderly (s.reqStoreSave p row) :=
  State.reserved_orderly <| by
    split
    · exact s.refuse_orderly ..
    · split
      · exact s.refuse_orderly ..
      · split
        · exact s.refuse_orderly ..
        · exact (s.startCommit_orderly ..).trans (State.done_orderly ..)

@[simp] theorem State.marked_fields (s : State) (r : RowId) (mark : Mark) :
    (s.marked r mark).window = s.binding.window ∧ (s.marked r mark).offers = s.binding.offers := by
  unfold State.marked
  exact ⟨rfl, rfl⟩

theorem State.setMark_orderly (s : State) (r : RowId) (mark : Mark) : s.Orderly (s.setMark r mark) := by
  rw [State.setMark_eq]
  exact .of_blocks

theorem State.setWriter_orderly (s : State) (w : Writer) : s.Orderly (s.setWriter w) := .of_blocks

theorem State.storeDone_orderly (s : State) (c : Commit) (outcome : StoreOutcome) : s.Orderly (s.storeDone c outcome) := by
  unfold State.storeDone
  split
  · exact .refl s
  · exact s.offerWhere_orderly ..

theorem State.completeCommit_orderly (s : State) (c : Commit) : s.Orderly (s.completeCommit c) := by
  unfold State.completeCommit
  simp only
  refine .trans (t := s.setRow c.row (rowOf c.content)) .of_blocks ?_
  split
  · exact (State.setMark_orderly ..).trans <| (State.setWriter_orderly ..).trans (State.storeDone_orderly ..)
  · exact (State.setWriter_orderly ..).trans (State.storeDone_orderly ..)

theorem State.cutCommit_orderly (s : State) (c : Commit) : s.Orderly (s.cutCommit c) := by
  unfold State.cutCommit
  split
  · exact (s.setMark_orderly ..).trans <| (State.setWriter_orderly ..).trans (State.storeDone_orderly ..)
  · exact .refl s

theorem execWriterStepEnd_orderly (s : State) : ∃ t : State, execWriterStepEnd s = .next t ∧ s.Orderly t := by
  unfold execWriterStepEnd
  split
  · split
    · exact ⟨_, rfl, s.setWriter_orderly _⟩
    · exact ⟨_, rfl, .refl s⟩
  all_goals exact ⟨_, rfl, .refl s⟩

theorem execCommitCompletion_orderly (s : State) : ∃ t : State, execCommitCompletion s = .next t ∧ s.Orderly t := by
  unfold execCommitCompletion
  split
  · split
    · exact ⟨_, rfl, s.completeCommit_orderly _⟩
    · exact ⟨_, rfl, .refl s⟩
  all_goals exact ⟨_, rfl, .refl s⟩

theorem execStweFall_orderly (s : State) : ∃ t : State, execStweFall s = .next t ∧ s.Orderly t := by
  unfold execStweFall
  split
  · refine ⟨_, rfl, .trans (t := { s with store := { s.store with stwe := false } }) .of_blocks ?_⟩
    cases s.store.writer.commit with
    | none => exact .refl _
    | some c => exact State.cutCommit_orderly _ c
  · exact ⟨_, rfl, .refl s⟩

/-! ## The lamps and the ends of windows and offers (R47, R50, R117) -/

/-- A lamp goes out, or with the last one the course becomes GREEN. -/
theorem execLampExpiry_orderly (s : State) : ∃ t : State, execLampExpiry s = .next t ∧ s.Orderly t := by
  unfold execLampExpiry
  split
  · next countdown _ =>
    have run : s.outOfLayout := State.outOfLayout_of_course (by rw [countdown]; decide)
    split
    · split
      · exact ⟨_, rfl, State.changeCourse_orderly _ (fun _ => ⟨fun e => (by cases e), fun _ => ⟨rfl, rfl⟩⟩) (.inr run)⟩
      · next more =>
        refine ⟨_, rfl, rfl, rfl, rfl, fun ⟨lit, _, offers⟩ => ?_, fun h hl => ?_⟩
        · obtain ⟨-, le, -⟩ := lit countdown
          exact ⟨fun _ => ⟨by simp; omega, by simp; omega, Option.some_ne_none _⟩, fun e => absurd countdown e, offers⟩
        · have := run h
          simp [this] at hl
    · exact ⟨_, rfl, .refl s⟩
  · exact ⟨_, rfl, .refl s⟩

theorem execPairingWindowExpiry_orderly (s : State) :
    ∃ t : State, execPairingWindowExpiry s = .next t ∧ s.Orderly t := by
  unfold execPairingWindowExpiry
  split
  · exact ⟨_, rfl, s.closeWindow_orderly⟩
  · exact ⟨_, rfl, .refl s⟩

/-! ## Requests -/

theorem State.carryOut_orderly (s : State) (p : PortId) (name : RequestName) (payload : List Byte) :
    s.Orderly (s.carryOut p name payload) := by
  cases name with
  | poll => exact s.done_orderly ..
  | take => exact s.reqTake_orderly ..
  | portStatus => exact s.reqPortStatus_orderly ..
  | portSet => exact s.reqPortSet_orderly ..
  | portReset => exact (s.modPort_portsOnly p _).orderly
  | select => exact s.reqSelect_orderly ..
  | fetch => exact s.reqFetch_orderly ..
  | put => exact s.reqPut_orderly ..
  | apply => exact s.reqApply_orderly ..
  | reportHandset => exact s.reqReportHandset_orderly ..
  | reportCrossing => exact s.reqReportCrossing_orderly ..
  | reportSwitch => exact s.reqReportSwitch_orderly ..
  | start => exact s.reqStart_orderly ..
  | stop => exact s.reqStop_orderly ..
  | caution => exact s.reqCaution_orderly ..
  | green => exact s.reqGreen_orderly ..
  | pitOpen | pitClose => exact s.reqPit_orderly ..
  | zoneLock => exact s.reqZoneLock_orderly ..
  | trackClear => exact s.reqTrackClear_orderly ..
  | switchDisable | switchEnable | switchClear => exact s.reqSwitch_orderly ..
  | layoutRun => exact s.reqLayoutRun_orderly ..
  | layoutEdit => exact s.reqLayoutEdit_orderly ..
  | openPairing => exact s.reqOpenPairing_orderly ..
  | closePairing => exact s.reqClosePairing_orderly ..
  | release => exact s.reqRelease_orderly ..
  | storeSave => exact s.reqStoreSave_orderly ..

theorem State.answers.orderly {s t : State} {p : PortId} (h : s.answers p t) : s.Orderly t := by
  obtain h | ⟨name, payload, rfl⟩ := h
  · exact h.orderly
  · exact (s.modPort_portsOnly p _).orderly.trans (State.carryOut_orderly ..)

theorem exec_requestOf_orderly {c : Instr} {p : PortId} {code : Byte} {payload : List Byte}
    (h : requestOf c = some (p, code, payload)) (s : State) : ∃ t : State, exec c s = .next t ∧ s.Orderly t := by
  obtain ⟨t, e, a⟩ := exec_requestOf_answers h s
  exact ⟨t, e, a.orderly⟩

/-! ## Every command -/

/-- The commands that move the Frame Sequencer: the resets, the tick and the parts of the rail frame. -/
def movesSequencer : Instr → Bool
  | .hardReset _ | .trackTimeTick | .restore | .restoreEnd | .railFrameStart | .broadcastWord | .carWord _
  | .quietWindow => true
  | _ => false

/-- Every command but those of the Frame Sequencer is answered by an orderly move. -/
theorem exec_orderly {c : Instr} (h : movesSequencer c = false) (s : State) :
    ∃ t : State, exec c s = .next t ∧ s.Orderly t := by
  cases c
  case hardReset | trackTimeTick | restore | restoreEnd | railFrameStart | broadcastWord | carWord | quietWindow => cases h
  case selnFall p => exact ⟨_, rfl, (s.modPort_portsOnly p _).orderly⟩
  case requestFrame p sdi =>
    obtain ⟨t, e, a⟩ := exec_requestFrame_answers p sdi s
    exact ⟨t, e, a.orderly⟩
  case staleExpiry k => exact execStaleExpiry_orderly k s
  case handsetLostExpiry k => exact execHandsetLostExpiry_orderly k s
  case pitExitRecheck w => exact execPitExitRecheck_orderly w s
  case actuationDeadline w => exact execActuationDeadline_orderly w s
  case holdDeadline w => exact execHoldDeadline_orderly w s
  case restoringActuationDeadline w => exact execRestoringActuationDeadline_orderly w s
  case intentExpiry c => exact execIntentExpiry_orderly c s
  case conflictCapEnd c => exact execConflictCapEnd_orderly c s
  case stall c => exact execStall_orderly c s
  case offerExpiry c => exact ⟨_, rfl, s.modOffers_filter_orderly _⟩
  case pairingWindowExpiry => exact execPairingWindowExpiry_orderly s
  case lampExpiry => exact execLampExpiry_orderly s
  case writerCommitStart => exact ⟨_, rfl, s.chooseCommit_orderly⟩
  case writerStepEnd => exact execWriterStepEnd_orderly s
  case commitCompletion => exact execCommitCompletion_orderly s
  case stweFall => exact execStweFall_orderly s
  case stweRise => exact ⟨_, rfl, .of_blocks⟩
  all_goals exact exec_requestOf_orderly rfl s

/-! ## The rail frame (R131 to R134) -/

/-- What O59 asks of a move: each of the three invariants is kept. -/
def State.keepsOrder (s t : State) : Prop :=
  (s.lampsAndOffersOk → t.lampsAndOffersOk) ∧ (s.layoutQuiet → t.layoutQuiet) ∧ (s.frameOk → t.frameOk)

theorem State.keepsOrder_refl (s : State) : s.keepsOrder s := ⟨id, id, id⟩

theorem State.keepsOrder.trans {s t u : State} (h : s.keepsOrder t) (g : t.keepsOrder u) : s.keepsOrder u :=
  ⟨g.1 ∘ h.1, g.2.1 ∘ h.2.1, g.2.2 ∘ h.2.2⟩

/-- The rail frame is read from the Frame Sequencer alone. -/
theorem State.frameOk_of_seq {s t : State} (h : s.frameOk) (seq : t.seq = s.seq) : t.frameOk := by
  unfold State.frameOk at *
  rw [seq]
  exact h

theorem State.Orderly.keepsOrder {s t : State} (h : s.Orderly t) : s.keepsOrder t :=
  ⟨h.lamps, h.quiet, fun f => State.frameOk_of_seq f h.seq⟩

/-- A change of the Frame Sequencer keeps the lamps, the offers and LAYOUT, which do not read it. -/
theorem State.keepsOrder_of_seq {s : State} {q : Sequencer} (h : s.frameOk → ({ s with seq := q } : State).frameOk) :
    s.keepsOrder { s with seq := q } := ⟨id, id, h⟩

theorem syncBits_length (frame : Fin 8) : (syncBits frame).length = 12 := by
  unfold syncBits
  split <;> rfl

theorem broadcastBits_length (frame : Fin 8) (course : Course) (lamps : Nat) (pitOpen : Bool) :
    (broadcastBits frame course lamps pitOpen).length = 12 := by
  simp [broadcastBits, natBits, bitsOf_length]

theorem carBits_length (speed : BitVec 6) (brake lamp : Bool) : (carBits speed brake lamp).length = 10 := by
  simp [carBits, bitsOf_length]

/-- The number of bits that a part of the frame puts on RDO, by a position in it (Table 7-1). -/
def partBits (b : Nat) : Nat := if b < 24 then 12 else if b < 184 then 10 else 0

/-- A part sent while frames run, with its own bits and WIN high in the quiet window alone, is in step. -/
theorem State.sendPart_frameOk {s : State} (run : s.seq.running = true) {position : Fin 200} {bits : List Bool} {win : Bool}
    (hb : bits.length = partBits position.val) (hw : win = true ↔ 184 ≤ position.val) :
    (s.sendPart position bits win).frameOk := by
  unfold State.frameOk
  simp only [State.sendPart_fields]
  exact ⟨hw, fun e => absurd (run.symm.trans e) (by decide), fun _ => hb⟩

theorem State.sendPart_keepsOrder {s : State} (run : s.seq.running = true) {position : Fin 200} {bits : List Bool}
    {win : Bool} (hb : bits.length = partBits position.val) (hw : win = true ↔ 184 ≤ position.val) :
    s.keepsOrder (s.sendPart position bits win) :=
  State.keepsOrder_of_seq fun _ => State.sendPart_frameOk run hb hw

theorem State.partDue_running {s : State} {p : Nat} (h : s.seq.partDue p = true) : s.seq.running = true :=
  ((s.partDue_iff p).1 h).1

theorem execBroadcastWord_keepsOrder (s : State) : ∃ t : State, execBroadcastWord s = .next t ∧ s.keepsOrder t := by
  unfold execBroadcastWord
  split
  · next due =>
    exact ⟨_, rfl, State.sendPart_keepsOrder (State.partDue_running due) (broadcastBits_length ..) (by decide)⟩
  · exact ⟨_, rfl, s.keepsOrder_refl⟩

theorem execCarWord_keepsOrder (c : CarId) (s : State) : ∃ t : State, execCarWord c s = .next t ∧ s.keepsOrder t := by
  unfold execCarWord
  split
  · next due =>
    have hp : (carPosition c).val = 24 + 10 * c.val := rfl
    have hc := c.isLt
    refine ⟨_, rfl, State.sendPart_keepsOrder (State.partDue_running due) ?_ ?_⟩
    · rw [carBits_length, partBits, hp, if_neg (by omega), if_pos (by omega)]
    · rw [hp]
      simp only [Bool.false_eq_true, false_iff]
      omega
  · exact ⟨_, rfl, s.keepsOrder_refl⟩

theorem execQuietWindow_keepsOrder (s : State) : ∃ t : State, execQuietWindow s = .next t ∧ s.keepsOrder t := by
  unfold execQuietWindow
  split
  · next due => exact ⟨_, rfl, State.sendPart_keepsOrder (State.partDue_running due) rfl (by decide)⟩
  · exact ⟨_, rfl, s.keepsOrder_refl⟩

/-- A frame begins in step, whatever came before it. -/
theorem State.beginFrame_frameOk {s : State} (run : s.seq.running = true) (frame : Fin 8) (next : Time) :
    (s.beginFrame frame next).frameOk := State.sendPart_frameOk run (syncBits_length frame) (by decide)

theorem execRailFrameStart_keepsOrder (s : State) : ∃ t : State, execRailFrameStart s = .next t ∧ s.keepsOrder t := by
  unfold execRailFrameStart
  split
  · next due =>
    simp only [Bool.and_eq_true] at due
    exact ⟨_, rfl, id, id, fun _ => State.beginFrame_frameOk due.1.1 ..⟩
  · exact ⟨_, rfl, s.keepsOrder_refl⟩

/-- The next position inside a part has the same bits on RDO and the same WIN. -/
theorem part_succ {b : Nat} (h : b + 1 < partEnd b) : partBits (b + 1) = partBits b ∧ (184 ≤ b + 1 ↔ 184 ≤ b) := by
  unfold partEnd at h
  unfold partBits
  split_ifs at * <;> omega

/-- A bit period inside a part keeps the part's bits and its WIN (R131). -/
theorem State.bitPeriod_keepsOrder (s : State) : s.keepsOrder s.bitPeriod := by
  obtain ⟨p, hp, run, inside, -, e⟩ | ⟨-, e⟩ := s.bitPeriod_cases
  · rw [e]
    refine State.keepsOrder_of_seq fun ⟨win, _, bits⟩ => ?_
    have next : partBits p.val = partBits s.seq.bitCounter.val ∧ (184 ≤ p.val ↔ 184 ≤ s.seq.bitCounter.val) := by
      rw [hp] at inside ⊢
      exact part_succ ((lt_partEnd_iff _).2 inside)
    refine ⟨win.trans next.2.symm, fun e => absurd (run.symm.trans e) (by decide), fun _ => ?_⟩
    exact (bits run).trans next.1.symm
  · rw [e]
    exact s.keepsOrder_refl

/-! ## Hard reset, track time and the start-up -/

theorem State.reset_lampsAndOffersOk : State.reset.lampsAndOffersOk :=
  ⟨fun e => (by cases e), fun _ => ⟨rfl, rfl⟩, by simp [State.reset, BindingTable.reset],
    by simp [State.reset, BindingTable.reset], fun _ => rfl⟩

theorem State.reset_layoutQuiet : State.reset.layoutQuiet := fun _ =>
  ⟨rfl, fun c => by simp [State.reset, Tracker.reset, LaneArbiter.reset, CarRecord.reset],
    fun z => by simp [State.reset, Tracker.reset],
    fun w => by simp [State.switch, State.reset, LaneArbiter.reset, SwitchState.reset], rfl⟩

theorem State.reset_frameOk : State.reset.frameOk := by
  refine ⟨by simp [State.reset, Sequencer.reset], fun _ => ⟨rfl, rfl⟩, fun e => (by cases e)⟩

/-- A hard reset leaves course, layout and rail frame at their reset values, which meet the invariants. -/
theorem execHardReset_keepsOrder (rcs : BitVec 4) (s : State) :
    ∃ t : State, execHardReset rcs s = .next t ∧ s.keepsOrder t :=
  ⟨_, rfl, fun _ => State.reset_lampsAndOffersOk, fun _ => State.reset_layoutQuiet, fun _ => State.reset_frameOk⟩

theorem execTrackTimeTick_keepsOrder (s : State) : ∃ t : State, execTrackTimeTick s = .next t ∧ s.keepsOrder t :=
  ⟨_, rfl, State.keepsOrder_of_seq id⟩

theorem State.restoreMarshal_orderly (s : State) (m : MarshalId) : s.Orderly (s.restoreMarshal m) := by
  unfold State.restoreMarshal
  simp only
  split <;> exact .of_blocks

theorem State.restoreCar_orderly (s : State) (c : CarId) : s.Orderly (s.restoreCar c) := by
  unfold State.restoreCar
  simp only
  split <;> exact .of_blocks

theorem State.restoreRows_orderly (s : State) : s.Orderly s.restoreRows :=
  (State.Orderly.foldl State.restoreMarshal_orderly s _).trans (State.Orderly.foldl State.restoreCar_orderly _ _)

theorem execRestore_keepsOrder (s : State) : ∃ t : State, execRestore s = .next t ∧ s.keepsOrder t := by
  unfold execRestore
  split
  · have rows := s.restoreRows_orderly.keepsOrder
    simp only
    generalize s.restoreRows = u at rows
    exact ⟨_, rfl, rows⟩
  · exact ⟨_, rfl, s.keepsOrder_refl⟩

/-- The start-up is over and frames run, before the first of them begins (R150). -/
def State.started (s : State) : State := { s with seq := { s.seq with starting := false, running := true } }

theorem execRestoreEnd_keepsOrder (s : State) : ∃ t : State, execRestoreEnd s = .next t ∧ s.keepsOrder t := by
  unfold execRestoreEnd
  split
  · have begun : s.keepsOrder (s.started.beginFrame 0 (addMs s.seq.nextFrame 5)) :=
      ⟨id, id, fun _ => State.beginFrame_frameOk rfl ..⟩
    exact ⟨_, rfl, begun.trans (State.chooseCommit_orderly _).keepsOrder⟩
  · exact ⟨_, rfl, s.keepsOrder_refl⟩

theorem exec_keepsOrder (c : Instr) (s : State) : ∃ t : State, exec c s = .next t ∧ s.keepsOrder t := by
  cases h : movesSequencer c with
  | false =>
    obtain ⟨t, e, o⟩ := exec_orderly h s
    exact ⟨t, e, o.keepsOrder⟩
  | true =>
    cases c
    case hardReset rcs => exact execHardReset_keepsOrder rcs s
    case trackTimeTick => exact execTrackTimeTick_keepsOrder s
    case restore => exact execRestore_keepsOrder s
    case restoreEnd => exact execRestoreEnd_keepsOrder s
    case railFrameStart => exact execRailFrameStart_keepsOrder s
    case broadcastWord => exact execBroadcastWord_keepsOrder s
    case carWord c => exact execCarWord_keepsOrder c s
    case quietWindow => exact execQuietWindow_keepsOrder s
    all_goals cases h

theorem step_keepsOrder {s t : State} (h : step s = .next t) : s.keepsOrder t := by
  unfold step at h
  split at h
  · cases h
    exact s.bitPeriod_keepsOrder
  · next c rest _ =>
    obtain ⟨u, e, k⟩ := exec_keepsOrder c { s with pending := rest }
    rw [e] at h
    cases h
    exact k

/-- Settles O59: every command moves the state in order, and the parts of the rail frame keep the Frame Sequencer in step. -/
theorem everyStepKeepsCourseAndLayout : Obligations.EveryStepKeepsCourseAndLayout :=
  fun _ _ h => step_keepsOrder h

end Sys2Proof.Machine
end

section
/-! LAYOUT RUN with its checks, and LAYOUT EDIT (R12 to R17, R80, R110). -/

namespace Sys2Proof.Machine

-- One after the other, the proofs need no thread each.
set_option Elab.async false

/-- Two states are equal when they agree in every block. -/
theorem State.ext_blocks {s t : State} (seq : s.seq = t.seq := by simp) (geo : s.geo = t.geo := by simp)
    (handsets : s.handsets = t.handsets := by simp) (binding : s.binding = t.binding := by simp)
    (tracker : s.tracker = t.tracker := by simp) (lane : s.lane = t.lane := by simp)
    (course : s.course = t.course := by simp) (store : s.store = t.store := by simp)
    (ports : s.ports = t.ports := by simp) (rcs : s.rcs = t.rcs := by simp)
    (freeCount : s.freeCount = t.freeCount := by simp) (pending : s.pending = t.pending := by simp) : s = t := by
  cases s
  cases t
  simp_all

/-- A reserved request of race control, taken on a port, is carried out on the state taken. -/
theorem State.request_reserved {s : State} {p : PortId} (op : State → State) (h : s.takes p)
    (rights : (s.ports[p]).raceControl = true) : s.request p (·.reserved p op) = op (s.taken p) := by
  rw [State.request_running p _ h]
  refine State.reserved_with op ?_
  rw [State.taken_ports, if_pos rfl]
  exact rights

/-- Taking a request, changing the phase and answering is changing the phase and then answering. -/
theorem State.taken_changePhase_done (s : State) (p : PortId) (phase : Phase) (l : List Byte) :
    ((s.taken p).changePhase phase).done p l = (s.changePhase phase).answer p (.done l) := by
  unfold State.changePhase State.offerAll
  rw [← State.taken_done, ← State.taken_offerWhere]
  rfl

/-- The lowest defined record that fails its check. -/
theorem firstIdx_failing_some {n : Nat} {defined ok : Fin n → Bool} {sound : Fin n → Prop}
    (h : ∀ i : Fin n, ok i = true ↔ sound i) {i : Fin n} (hd : defined i = true) (bad : ¬ sound i)
    (below : ∀ k : Fin n, k < i → defined k = true → sound k) :
    firstIdx n (fun i => defined i && !ok i) = some i := by
  refine firstIdx_eq_some.2 ⟨?_, fun k hk => ?_⟩
  · have fails : ok i = false := Bool.eq_false_iff.2 fun e => bad ((h i).1 e)
    rw [hd, fails]
    rfl
  · cases dk : defined k with
    | false => rfl
    | true => rw [(h k).2 (below k hk dk)]; rfl

theorem firstIdx_failing_none {n : Nat} {defined ok : Fin n → Bool} {sound : Fin n → Prop}
    (h : ∀ i : Fin n, ok i = true ↔ sound i) (all : ∀ i : Fin n, defined i = true → sound i) :
    firstIdx n (fun i => defined i && !ok i) = none := by
  refine firstIdx_eq_none.2 fun i => ?_
  cases di : defined i with
  | false => rfl
  | true => rw [(h i).2 (all i di)]; rfl

/-! ## LAYOUT RUN -/

/-- Every check passed, the switches rest and the phase is RUN, with its notice (R12). -/
theorem State.taken_run (s : State) (p : PortId) :
    ((s.taken p).readySwitches.changePhase .run).done p [] = (({ s with
      geo := { s.geo with phase := .run },
      lane := { s.lane with switches := mapAll s.lane.switches fun _ st =>
        { st with mode := .ready, position := .normal } } }).offerAll (.layout .run)).answer p (.done []) := by
  have comm : (s.taken p).readySwitches = s.readySwitches.taken p := State.ext_blocks
  rw [comm, State.taken_changePhase_done]
  unfold State.changePhase State.readySwitches
  rfl

section
variable {p : PortId} {s : State} (takes : s.takes p) (rights : (s.ports[p]).raceControl = true)
include takes rights

theorem exec_layoutRun_in_run (run : s.geo.phase = .run) :
    exec (.layoutRun p) s = .next (s.answer p (.refused .phase)) := by
  change Host.Outcome.next (s.request p (·.reqLayoutRun p)) = _
  unfold State.reqLayoutRun
  rw [State.request_reserved _ takes rights, if_pos (by simpa using run), State.taken_refuse]

theorem exec_layoutRun_switch_fails (layout : s.geo.phase = .layout) {w : SwitchId} (h : s.geo.failingSwitch = some w) :
    exec (.layoutRun p) s = .next (s.answer p (.refused (.layoutFault 1 (idxByte w)))) := by
  change Host.Outcome.next (s.request p (·.reqLayoutRun p)) = _
  unfold State.reqLayoutRun
  rw [State.request_reserved _ takes rights]
  simp [layout, h]

theorem exec_layoutRun_sensor_fails (layout : s.geo.phase = .layout) (hw : s.geo.failingSwitch = none) {n : SensorId}
    (hn : s.geo.failingSensor = some n) :
    exec (.layoutRun p) s = .next (s.answer p (.refused (.layoutFault 2 (idxByte n)))) := by
  change Host.Outcome.next (s.request p (·.reqLayoutRun p)) = _
  unfold State.reqLayoutRun
  rw [State.request_reserved _ takes rights]
  simp [layout, hw, hn]

theorem exec_layoutRun_passes (layout : s.geo.phase = .layout) (hw : s.geo.failingSwitch = none)
    (hn : s.geo.failingSensor = none) :
    exec (.layoutRun p) s = .next (((s.taken p).readySwitches.changePhase .run).done p []) := by
  change Host.Outcome.next (s.request p (·.reqLayoutRun p)) = _
  unfold State.reqLayoutRun
  rw [State.request_reserved _ takes rights]
  simp [layout, hw, hn]

end

/-! ## LAYOUT EDIT -/

theorem SwitchMode.inMotion_iff (m : SwitchMode) :
    m.inMotion = true ↔ m.runState ∈ [RunState.pending, .set, .restoring] := by
  cases m <;> simp [SwitchMode.inMotion, SwitchMode.runState]

theorem State.anyInMotion_iff (s : State) :
    s.anyInMotion = true ↔ ∃ w : SwitchId, (s.switch w).mode.runState ∈ [RunState.pending, .set, .restoring] := by
  simp only [← SwitchMode.inMotion_iff]
  unfold State.anyInMotion State.switch
  rw [List.any_eq_true]
  constructor
  · rintro ⟨st, mem, moving⟩
    obtain ⟨k, hk, rfl⟩ := Vector.mem_iff_getElem.1 (Vector.mem_toList_iff.1 mem)
    exact ⟨⟨k, hk⟩, moving⟩
  · rintro ⟨w, moving⟩
    exact ⟨_, Vector.mem_toList_iff.2 (Vector.getElem_mem w.isLt), moving⟩

/-- What an edit makes of the tracker and the lane is read from the tracker and the lane. -/
theorem State.edited_taken (s : State) (p : PortId) : (s.taken p).edited = s.edited.taken p := by
  have tracker : (s.taken p).edited.tracker = s.edited.tracker := by
    simp only [State.edited, State.forgetPositions, State.clearPositions, State.taken_fields, State.clearLane_fields,
      State.readySwitches_fields, State.modOffers_fields]
  have lane : (s.taken p).edited.lane = s.edited.lane := by
    simp only [State.edited, State.clearLane, State.forgetPositions_fields, State.taken_fields,
      State.readySwitches_fields, State.modOffers_fields]
  exact State.ext_blocks (tracker := by rw [tracker]; simp) (lane := by rw [lane]; simp)

/-- LAYOUT EDIT of race control, by its tests in order. -/
theorem exec_layoutEdit {p : PortId} {s : State} (takes : s.takes p) (rights : (s.ports[p]).raceControl = true) :
    exec (.layoutEdit p) s = .next
      (if s.geo.phase = .layout then s.answer p (.refused .phase)
      else if s.course.course ≠ .stop then s.answer p (.refused .state)
      else if s.anyInMotion then s.answer p (.refused .state)
      else ((s.edited.taken p).changePhase .layout).done p []) := by
  change Host.Outcome.next (s.request p (·.reqLayoutEdit p)) = _
  unfold State.reqLayoutEdit
  rw [State.request_reserved _ takes rights]
  simp only [State.taken_fields, State.taken_refuse]
  rw [← State.edited_taken]
  rfl

/-- An edit leaves every block but the phase, the offers, the tracker and the lane. -/
theorem State.edited_done (s : State) (p : PortId) :
    ((s.edited.taken p).changePhase .layout).done p [] = { s with
      geo := { s.geo with phase := .layout }, binding := { s.binding with offers := [] },
      tracker := s.edited.tracker, lane := s.edited.lane,
      ports := ((s.offerAll (.layout .layout)).answer p (.done [])).ports } := by
  rw [State.taken_changePhase_done]
  exact State.ext_blocks (ports := by simp [State.now])

/-- Settles O50, by the two searches of LAYOUT RUN and the tests of LAYOUT EDIT. -/
theorem layoutRunAndEditChangeThePhase : Obligations.LayoutRunAndEditChangeThePhase := by
  intro p s takes rights
  simp only [exec_layoutEdit takes rights, ← State.anyInMotion_iff]
  refine ⟨exec_layoutRun_in_run takes rights, fun layout => ⟨fun w defined bad below => ?_, fun sound => ?_⟩,
    fun layout => by rw [if_pos layout], fun run held => ?_, fun run stop still => ?_⟩
  · exact exec_layoutRun_switch_fails takes rights layout
      (firstIdx_failing_some s.geo.switchOk_iff defined bad below)
  · have noSwitch : s.geo.failingSwitch = none := firstIdx_failing_none s.geo.switchOk_iff sound
    refine ⟨fun n defined bad below => ?_, fun sound' => ?_⟩
    · exact exec_layoutRun_sensor_fails takes rights layout noSwitch
        (firstIdx_failing_some s.geo.sensorOk_iff defined bad below)
    · rw [exec_layoutRun_passes takes rights layout noSwitch (firstIdx_failing_none s.geo.sensorOk_iff sound'),
        State.taken_run]
  · have notLayout : s.geo.phase ≠ .layout := by rw [run]; decide
    rw [if_neg notLayout]
    by_cases stop : s.course.course = .stop
    · have moving : s.anyInMotion = true := held.resolve_left fun e => e stop
      rw [if_neg (by simpa using stop), if_pos moving]
    · rw [if_pos stop]
  · have notLayout : s.geo.phase ≠ .layout := by rw [run]; decide
    rw [if_neg notLayout, if_neg (by simpa using stop), if_neg still, State.edited_done]
    refine ⟨_, rfl, fun c => ⟨s.edited_cars c, s.edited_caps c⟩, s.edited_lists, fun w => ?_, rfl⟩
    rw [← s.edited_switch w]
    exact State.switch_eq (by dsimp only) w

end Sys2Proof.Machine
end

section
/-! FETCH: the record at the cursor is staged and returned, byte for byte (R156, R166). -/

namespace Sys2Proof.Machine

-- One after the other, the proofs need no thread each.
set_option Elab.async false

/-! ## The request -/

theorem State.taken_port_self (s : State) (p : PortId) :
    (s.taken p).ports[p] = { s.ports[p] with selLow := false, shiftFrame := [], checkError := false } := by
  rw [State.taken_ports, if_pos rfl]

/-- A record's bytes are read from the blocks, and not from the ports. -/
theorem State.taken_recordImage (s : State) (p : PortId) (ref : RecordRef) :
    (s.taken p).recordImage ref = s.recordImage ref := by
  cases ref with
  | car c =>
    unfold State.recordImage State.carImage State.pitHoldBytes State.claimBits
    rw [State.taken_switch]
    rfl
  | _ => simp only [State.recordImage, State.taken_fields, State.taken_switch]

theorem State.taken_revisionOf (s : State) (p : PortId) (ref : RecordRef) :
    (s.taken p).revisionOf ref = s.revisionOf ref := by
  cases ref <;> simp only [State.revisionOf, State.taken_fields]

theorem exec_fetch_absent {p : PortId} {s : State} (takes : s.takes p) (h : (s.ports[p]).cursor = none) :
    exec (.fetch p) s = .next (s.answer p (.refused .noStaging)) := by
  change Host.Outcome.next (s.request p (·.reqFetch p)) = _
  rw [State.request_running p _ takes]
  unfold State.reqFetch
  rw [State.taken_port_self]
  simp only [h, State.taken_refuse]

theorem exec_fetch_present {p : PortId} {s : State} (takes : s.takes p) {ref : RecordRef}
    (h : (s.ports[p]).cursor = some ref) :
    exec (.fetch p) s = .next ((s.modPort p fun pt =>
      { pt with
        staging := some (Staging.mk (.conditional (s.revisionOf ref)) ref (s.recordImage ref) 1),
        cursor := some ref.next }).answer p (.done (ref.table :: ref.index :: s.recordImage ref))) := by
  change Host.Outcome.next (s.request p (·.reqFetch p)) = _
  rw [State.request_running p _ takes]
  unfold State.reqFetch
  rw [State.taken_port_self]
  simp only [h, State.taken_recordImage, State.taken_revisionOf]
  simp [State.taken, State.modPort, State.done, State.reply, State.answer]

/-! ## The cursor in index order (R156) -/

theorem idxByte_next {m : Nat} (h : m < 256) (i : Fin (m + 1)) :
    idxByte (i + 1) = idxByte i + 1 ∨ (idxByte i).toNat = m ∧ (idxByte (i + 1)).toNat = 0 := by
  unfold idxByte natByte
  rw [Fin.val_add_one]
  split
  · next last =>
    right
    rw [last]
    simp; omega
  · left
    exact BitVec.ofNat_add ..

theorem numByte_next {m : Nat} (h : m + 1 < 256) (i : Fin (m + 1)) :
    numByte (i + 1) = numByte i + 1 ∨ (numByte i).toNat = m + 1 ∧ (numByte (i + 1)).toNat = 1 := by
  unfold numByte natByte
  rw [Fin.val_add_one]
  split
  · next last =>
    right
    rw [last]
    simp; omega
  · left
    exact BitVec.ofNat_add ..

/-! ## The parts of a car's record -/

/-- The place in a list is that of the first entry that meets the test. -/
theorem placeIn_append {α : Type} {l before after : List α} {a : α} {test : α → Bool} (h : l = before ++ a :: after)
    (ha : test a = true) (hb : ∀ x ∈ before, test x = false) : placeIn l test = some (before.length + 1) := by
  have none : before.findIdx? test = none := List.findIdx?_eq_none_iff.2 hb
  unfold placeIn
  rw [h, List.findIdx?_append, none, List.findIdx?_cons, ha]
  simp

/-- Setting bits one by one sets those, and those only, of the indexes that meet the test. -/
theorem getLsbD_foldl_twoPow {n : Nat} (test : Fin n → Bool) (l : List (Fin n)) (acc : BitVec n) (w : Fin n) :
    (l.foldl (fun acc w => if test w then acc ||| BitVec.twoPow n w.val else acc) acc).getLsbD w.val =
      (acc.getLsbD w.val || (l.contains w && test w)) := by
  induction l generalizing acc with
  | nil => simp
  | cons k ks ih =>
    rw [List.foldl_cons, ih]
    by_cases hk : w = k
    · subst hk
      cases test w <;> simp
    · have : w.val ≠ k.val := fun e => hk (Fin.ext e)
      cases test k <;> simp [hk, this]

theorem State.claimBits_getLsbD (s : State) (c : CarId) (w : SwitchId) :
    (s.claimBits c).getLsbD w.val = true ↔ ∃ cl : Claim, (s.switch w).mode.claim = some cl ∧ cl.car = c := by
  unfold State.claimBits
  rw [getLsbD_foldl_twoPow fun w => ((s.switch w).mode.claim).any (·.car == c)]
  simp [Option.any_eq_true]

/-- The three PIT_HOLD bytes: the switch, and the reason and place of the car's entry in its hold list. -/
theorem State.pitHoldBytes_eq (s : State) (c : CarId) :
    s.pitHoldBytes c = [(s.lane.pitHolds[c]).elim 0xFF idxByte,
      (s.lane.pitHolds[c]).elim 0xFF fun w => optByte (·.reason.byte) ((s.switch w).holds.find? (·.car == c)),
      (s.lane.pitHolds[c]).elim 0xFF fun w => optByte natByte (placeIn (s.switch w).holds (·.car == c))] := by
  unfold State.pitHoldBytes
  cases s.lane.pitHolds[c] <;> rfl

theorem positionStateByte_eq (placed : Option Placed) :
    positionStateByte placed = placed.elim 0 fun pl => if pl.stalled then 2 else 1 := by
  cases placed <;> rfl

/-- The time of an absent field is 0. -/
theorem timeBytes_map {α : Type} (field : Option α) (time : α → Time) :
    timeBytes (field.map time) = w4 (field.elim 0 time) := by
  cases field <;> rfl

theorem State.carImage_form (s : State) (c : CarId) : s.carForm c (s.carImage c) := by
  refine ⟨optByte natByte ((s.tracker.cars[c]).placed.bind fun pl => placeIn s.tracker.lists[pl.zone] (·.car == c)),
    (s.lane.pitHolds[c]).elim 0xFF fun w => optByte (·.reason.byte) ((s.switch w).holds.find? (·.car == c)),
    (s.lane.pitHolds[c]).elim 0xFF fun w => optByte natByte (placeIn (s.switch w).holds (·.car == c)),
    s.claimBits c, fun unplaced => ?_, fun pl before after o placed list own first => ?_, fun free => ?_,
    fun w before after held hold list own first => ?_, s.claimBits_getLsbD c, ?_⟩
  · rw [unplaced]
    rfl
  · have place := placeIn_append (test := (·.car == c)) list (by simpa using own) (by simpa using first)
    rw [placed]
    exact congrArg (optByte natByte) place
  · rw [free]
    exact ⟨rfl, rfl⟩
  · have place := placeIn_append (test := (·.car == c)) list (by simpa using own) (by simpa using first)
    have found : (s.switch w).holds.find? (·.car == c) = some held :=
      List.find?_eq_some_iff_append.2 ⟨by simpa using own, before, after, list, by simpa using first⟩
    rw [hold]
    exact ⟨congrArg (optByte fun x : Hold => x.reason.byte) found, congrArg (optByte natByte) place⟩
  · unfold State.carImage
    rw [State.pitHoldBytes_eq]
    simp only [positionStateByte_eq, timeBytes_map, List.append_assoc]
    rfl

/-! ## Every record (R166) -/

theorem recordCodes_hold : recordCodes := ⟨rfl, rfl, rfl, rfl, rfl, rfl, rfl, rfl, rfl, rfl, rfl⟩

theorem State.recordImage_form (s : State) (ref : RecordRef) : s.recordForm ref (s.recordImage ref) := by
  cases ref with
  | zone z => rfl
  | switch w => rfl
  | sensor n =>
    refine ⟨fun z h => ?_, fun z w h => ?_, fun h => ?_⟩ <;>
    · simp only [State.recordImage, Sensor.image, h]
      rfl
  | binding c =>
    refine ⟨fun h => ?_, fun a h => ?_⟩
    · simp only [State.recordImage, Binding.image, h]
      rfl
    · simp only [State.recordImage, Binding.image, h]
      cases hs : a.state <;> simp [bindingStateByte, hs] <;> rfl
  | marshal m => rfl
  | settings => rfl
  | handset h =>
    refine ⟨fun e => ?_, fun r e => ?_⟩
    · simp only [State.recordImage, e]
      rfl
    · simp only [State.recordImage, e]
      rfl
  | car c => exact s.carImage_form c

/-- Settles O18: the request, the bytes of each table's record, and the cursor's next place. -/
theorem fetchReadsTheRecordAtTheCursor : Obligations.FetchReadsTheRecordAtTheCursor := by
  refine ⟨recordCodes_hold, fun p s takes => ⟨exec_fetch_absent takes, fun ref h => ?_⟩⟩
  refine ⟨exec_fetch_present takes h, s.recordImage_form ref, by cases ref <;> rfl, ?_⟩
  cases ref with
  | zone z => exact idxByte_next (by decide) z
  | switch w => exact idxByte_next (by decide) w
  | sensor n => exact idxByte_next (by decide) n
  | binding c => exact numByte_next (by decide) c
  | marshal m => exact numByte_next (by decide) m
  | settings => exact .inr ⟨rfl, rfl⟩
  | handset k => exact idxByte_next (by decide) k
  | car c => exact numByte_next (by decide) c

end Sys2Proof.Machine
end

section
/-! The fields of a staged record read back: the first that is out of range, and the value of each that is in range (R7, R9,
R57, R128, R166). -/

namespace Sys2Proof.Machine

-- One after the other, the proofs need no thread each.
set_option Elab.async false

/-! ## One field -/

theorem inRange_eq {n : Nat} (lo hi : Nat) (x : BitVec n) : inRange lo hi x = decide (lo ≤ x.toNat ∧ x.toNat ≤ hi) := by
  simp [inRange]

theorem wordAt_toNat (image : List Byte) (k : Nat) :
    (wordAt image k).toNat = 256 * (byteAt image k).toNat + (byteAt image (k + 1)).toNat := by
  unfold wordAt
  rw [BitVec.toNat_append, Nat.shiftLeft_eq, Nat.mul_comm, ← Nat.two_pow_add_eq_or_of_lt (byteAt image (k + 1)).isLt]

theorem inRange_word (lo hi : Nat) (image : List Byte) (k : Nat) :
    inRange lo hi (wordAt image k) =
      decide (lo ≤ 256 * (byteAt image k).toNat + (byteAt image (k + 1)).toNat ∧
        256 * (byteAt image k).toNat + (byteAt image (k + 1)).toNat ≤ hi) := by
  rw [inRange_eq, wordAt_toNat]

/-- A stall time is 0 or in range. -/
theorem zero_or_inRange_word (lo hi : Nat) (image : List Byte) (k : Nat) :
    (wordAt image k == 0 || inRange lo hi (wordAt image k)) =
      (decide (256 * (byteAt image k).toNat + (byteAt image (k + 1)).toNat = 0) ||
        decide (lo ≤ 256 * (byteAt image k).toNat + (byteAt image (k + 1)).toNat ∧
          256 * (byteAt image k).toNat + (byteAt image (k + 1)).toNat ≤ hi)) := by
  have zero : (wordAt image k == 0) = decide ((wordAt image k).toNat = 0) := by
    rw [Bool.eq_iff_iff, beq_iff_eq, decide_eq_true_iff]
    exact ⟨fun h => h ▸ BitVec.toNat_zero, fun h => BitVec.eq_of_toNat_eq (h.trans BitVec.toNat_zero.symm)⟩
  rw [zero, inRange_word, wordAt_toNat]

/-- The reading of field n gives a value when the test passes, and else names the field. -/
def ReadsField {α : Type} (e : Except Byte α) (n : Nat) (test : Bool) : Prop :=
  (test = true → ∃ a : α, e = .ok a) ∧ (test = false → e = .error (BitVec.ofNat 8 n))

theorem checked_true {α : Type} {field : Byte} {ok : Bool} {a : α} (h : ok = true) : checked field ok a = .ok a := by
  simp [checked, h]

theorem checked_eq_ok {α : Type} {field : Byte} {ok : Bool} {a b : α} (h : checked field ok a = .ok b) :
    ok = true ∧ a = b := by
  cases ok <;> cases h
  exact ⟨rfl, rfl⟩

theorem checked_reads {α : Type} (n : Nat) {ok test : Bool} (a : α) (h : ok = test) :
    ReadsField (checked (BitVec.ofNat 8 n) ok a) n test := by
  subst h
  exact ⟨fun e => ⟨a, checked_true e⟩, fun e => by simp [checked, e]⟩

theorem checkFlag_reads (n : Nat) (b : Byte) :
    ReadsField (checkFlag (BitVec.ofNat 8 n) b) n (decide (0 ≤ b.toNat ∧ b.toNat ≤ 1)) :=
  checked_reads n _ (decide_eq_decide.2 (by omega))

theorem checkFin_reads (m n : Nat) (b : Byte) (hm : 0 < m) :
    ReadsField (checkFin m (BitVec.ofNat 8 n) b) n (decide (0 ≤ b.toNat ∧ b.toNat ≤ m - 1)) := by
  refine ⟨fun h => ?_, fun h => ?_⟩
  · have lt : b.toNat < m := by have := of_decide_eq_true h; omega
    have found : finOf m b = some ⟨b.toNat, lt⟩ := finOf_eq_some.2 rfl
    exact ⟨⟨b.toNat, lt⟩, by rw [checkFin, found]; rfl⟩
  · have ge : m ≤ b.toNat := by have := of_decide_eq_false h; omega
    rw [checkFin, finOf_eq_none.2 ge]
    rfl

/-- A field that may be absent: absent, a number in range, or refused. -/
theorem checkOptFin_cases (m : Nat) (field b : Byte) :
    (b.toNat = 255 ∧ checkOptFin m field b = .ok none) ∨
    (∃ i : Fin m, b.toNat = i.val ∧ checkOptFin m field b = .ok (some i)) ∨
    (m ≤ b.toNat ∧ b.toNat ≠ 255 ∧ checkOptFin m field b = .error field) := by
  unfold checkOptFin
  by_cases absent : b = 0xFF
  · exact .inl ⟨by rw [absent]; rfl, if_pos absent⟩
  · rw [if_neg absent, checkFin]
    have present : b.toNat ≠ 255 := fun e => absent (BitVec.eq_of_toNat_eq e)
    cases found : finOf m b with
    | none => exact .inr (.inr ⟨finOf_eq_none.1 found, present, rfl⟩)
    | some i => exact .inr (.inl ⟨i, finOf_eq_some.1 found, rfl⟩)

theorem checkOptFin_reads (m n : Nat) (b : Byte) (hm : 0 < m) :
    ReadsField (checkOptFin m (BitVec.ofNat 8 n) b) n
      (decide (0 ≤ b.toNat ∧ b.toNat ≤ m - 1) || decide (b.toNat = 255)) := by
  obtain ⟨hb, e⟩ | ⟨i, hb, e⟩ | ⟨hb, present, e⟩ := checkOptFin_cases m (BitVec.ofNat 8 n) b <;> rw [e]
  · exact ⟨fun _ => ⟨none, rfl⟩, fun h => by simp [hb] at h⟩
  · have := i.isLt
    exact ⟨fun _ => ⟨some i, rfl⟩, fun h => by simp at h; omega⟩
  · exact ⟨fun h => by simp [present] at h; omega, fun _ => rfl⟩

/-! ## The fields in order -/

/-- The reading of the fields from n on names the first whose test fails. -/
def NamesFirst {α : Type} (e : Except Byte α) (n : Nat) (tests : List Bool) : Prop :=
  ∀ k : Nat, (∀ j : Nat, j < k → tests[j]? = some true) → tests[k]? = some false → e = .error (BitVec.ofNat 8 (n + k))

theorem NamesFirst.nil {α : Type} (e : Except Byte α) (n : Nat) : NamesFirst e n [] := fun k _ h => by simp at h

theorem NamesFirst.cons {α β : Type} {e : Except Byte α} {f : α → Except Byte β} {n : Nat} {test : Bool}
    {tests : List Bool} (h : ReadsField e n test) (rest : ∀ a : α, e = .ok a → NamesFirst (f a) (n + 1) tests) :
    NamesFirst (e >>= f) n (test :: tests) := by
  intro k before fails
  cases k with
  | zero =>
    rw [h.2 (by simpa using fails)]
    rfl
  | succ k =>
    obtain ⟨a, ha⟩ := h.1 (by simpa using before 0 (Nat.succ_pos k))
    have named := rest a ha k (fun j hj => by simpa using before (j + 1) (Nat.succ_lt_succ hj)) (by simpa using fails)
    rw [ha, ← Nat.add_assoc, Nat.add_right_comm]
    exact named

/-! ## The tables -/

theorem parseZone_namesFirst (z : ZoneId) (image : List Byte) (revision : Byte) :
    NamesFirst (parseZone image revision) 1 (fieldTests (.zone z) image) :=
  .cons (checkFlag_reads 1 _) fun _ _ => .cons (checked_reads 2 _ (inRange_eq ..)) fun _ _ =>
    .cons (checked_reads 3 _ (inRange_eq ..)) fun _ _ => .cons (checked_reads 4 _ (inRange_word ..)) fun _ _ =>
    .cons (checked_reads 5 _ (zero_or_inRange_word ..)) fun _ _ => .nil _ _

theorem parseSwitch_namesFirst (w : SwitchId) (image : List Byte) (revision : Byte) :
    NamesFirst (parseSwitch image revision) 1 (fieldTests (.switch w) image) :=
  .cons (checkFlag_reads 1 _) fun _ _ => .cons (checkFin_reads 3 2 _ (by decide)) fun _ _ =>
    .cons (checkFin_reads 4 3 _ (by decide)) fun _ _ => .cons (checkFlag_reads 4 _) fun _ _ =>
    .cons (checkFin_reads 64 5 _ (by decide)) fun _ _ => .cons (checkFin_reads 64 6 _ (by decide)) fun _ _ =>
    .cons (checkOptFin_reads 64 7 _ (by decide)) fun _ _ => .cons (checked_reads 8 _ (inRange_word ..)) fun _ _ =>
    .cons (checked_reads 9 _ (inRange_word ..)) fun _ _ => .cons (checked_reads 10 _ (inRange_word ..)) fun _ _ => .nil _ _

/-- Every identity is one, so the first field of a binding record is never out of range (R57). -/
theorem parseBinding_namesFirst (c : CarId) (image : List Byte) :
    NamesFirst (parseBinding image) 1 (fieldTests (.binding c) image) :=
  .cons (test := true) (e := .ok ()) (f := fun _ => parseBinding image) ⟨fun _ => ⟨(), rfl⟩, nofun⟩ fun _ _ =>
    .cons (checked_reads 2 _ (inRange_eq ..)) fun _ _ => .cons (checkFlag_reads 3 _) fun _ _ => .nil _ _

theorem parseSettings_namesFirst (image : List Byte) (revision : Byte) :
    NamesFirst (parseSettings image revision) 1 (fieldTests .settings image) :=
  .cons (checked_reads 1 _ (inRange_eq ..)) fun _ _ => .cons (checked_reads 2 _ (inRange_eq ..)) fun _ _ =>
    .cons (checked_reads 3 _ (inRange_word ..)) fun _ _ => .cons (checked_reads 4 _ (inRange_eq ..)) fun _ _ =>
    .cons (checked_reads 5 _ (inRange_eq ..)) fun _ _ => .cons (checked_reads 6 _ (inRange_word ..)) fun _ _ =>
    .cons (checked_reads 7 _ (inRange_eq ..)) fun _ _ => .cons (checkFlag_reads 8 _) fun _ _ =>
    .cons (checkFlag_reads 9 _) fun _ _ => .nil _ _

/-! ### Sensors: the kind says which of the zone and the switch are needed (R7) -/

/-- The zone field of a sensor of a kind: a zone in range, or none at a PAIRING sensor. -/
def zoneField (kind : Fin 3) (b : Byte) : Except Byte (Option ZoneId) := do
  let zone ← checkOptFin 64 3 b
  checked 3 (kind == 2 || zone.isSome) zone

/-- The switch field of a sensor of a kind, and with it the kind's own record. -/
def switchField (kind : Fin 3) (zone : Option ZoneId) (b : Byte) : Except Byte SensorKind := do
  let switch ← checkOptFin 32 4 b
  sensorKindOf kind zone switch

/-- A sensor is read in five fields. -/
theorem parseSensor_eq (image : List Byte) (revision : Byte) :
    parseSensor image revision = (do
      let defined ← checkFlag 1 (byteAt image 0)
      let kind ← checkFin 3 2 (byteAt image 1)
      let zone ← zoneField kind (byteAt image 2)
      let kind ← switchField kind zone (byteAt image 3)
      let owner ← checkFin 4 5 (byteAt image 4)
      return Sensor.mk defined kind owner revision) := by
  simp only [parseSensor, zoneField, switchField, bind_assoc]
  refine bind_congr fun _ => bind_congr fun kind => bind_congr fun zone => ?_
  cases (kind == 2 || zone.isSome) <;> rfl

theorem checkFin_val {m : Nat} {field b : Byte} {i : Fin m} (h : checkFin m field b = .ok i) : b.toNat = i.val := by
  unfold checkFin at h
  cases e : finOf m b with
  | none => rw [e] at h; cases h
  | some j =>
    rw [e] at h
    cases h
    exact finOf_eq_some.1 e

theorem zoneField_reads {kind : Fin 3} {k : Byte} (hk : k.toNat = kind.val) (b : Byte) :
    ReadsField (zoneField kind b) 3
      (decide (0 ≤ b.toNat ∧ b.toNat ≤ 63) || (decide (b.toNat = 255) && decide (k.toNat = 2))) := by
  have pairing : kind = 2 ↔ k.toNat = 2 := by rw [hk]; exact Fin.ext_iff
  unfold zoneField
  obtain ⟨hb, e⟩ | ⟨z, hb, e⟩ | ⟨hb, present, e⟩ := checkOptFin_cases 64 3 b <;> rw [e]
  · rw [hb]
    exact checked_reads 3 _ (by rw [Bool.eq_iff_iff]; simp [pairing])
  · have := z.isLt
    exact ⟨fun _ => ⟨some z, checked_true (Bool.or_true _)⟩, fun h => by simp at h; omega⟩
  · exact ⟨fun h => by simp [present] at h; omega, fun _ => rfl⟩

/-- A sensor that is no PAIRING sensor has its zone. -/
theorem zoneField_present {kind : Fin 3} {b : Byte} {zone : Option ZoneId} (h : zoneField kind b = .ok zone) :
    kind = 2 ∨ zone.isSome = true := by
  unfold zoneField at h
  cases e : checkOptFin 64 3 b with
  | error k => rw [e] at h; cases h
  | ok found =>
    rw [e] at h
    obtain ⟨test, rfl⟩ := checked_eq_ok h
    simpa using test

/-- A kind is made when what it needs is there: the zone but at a PAIRING sensor, and the switch at an ENTRY sensor. -/
theorem sensorKindOf_ok {kind : Fin 3} {zone : Option ZoneId} {switch : Option SwitchId}
    (hz : kind = 2 ∨ zone.isSome = true) (hw : kind ≠ 1 ∨ switch.isSome = true) :
    ∃ made : SensorKind, sensorKindOf kind zone switch = .ok made := by
  unfold sensorKindOf
  by_cases pairing : kind = 2
  · exact ⟨_, if_pos pairing⟩
  · obtain ⟨z, rfl⟩ := Option.isSome_iff_exists.1 (hz.resolve_left pairing)
    rw [if_neg pairing]
    by_cases boundary : kind = 0
    · exact ⟨_, if_pos boundary⟩
    · have entry : kind = 1 := by omega
      obtain ⟨w, rfl⟩ := Option.isSome_iff_exists.1 (hw.resolve_left (absurd entry))
      exact ⟨_, if_neg boundary⟩

/-- An ENTRY sensor without a switch offends in field 4. -/
theorem sensorKindOf_no_switch {zone : Option ZoneId} (hz : zone.isSome = true) :
    sensorKindOf 1 zone none = .error 4 := by
  obtain ⟨z, rfl⟩ := Option.isSome_iff_exists.1 hz
  rfl

theorem switchField_reads {kind : Fin 3} {k : Byte} (hk : k.toNat = kind.val) {zone : Option ZoneId}
    (hz : kind = 2 ∨ zone.isSome = true) (b : Byte) :
    ReadsField (switchField kind zone b) 4
      (decide (0 ≤ b.toNat ∧ b.toNat ≤ 31) || (decide (b.toNat = 255) && decide (k.toNat ≠ 1))) := by
  have entry : kind = 1 ↔ k.toNat = 1 := by rw [hk]; exact Fin.ext_iff
  unfold switchField
  obtain ⟨hb, e⟩ | ⟨w, hb, e⟩ | ⟨hb, present, e⟩ := checkOptFin_cases 32 4 b <;> rw [e]
  · change ReadsField (sensorKindOf kind zone none) 4 _
    refine ⟨fun h => sensorKindOf_ok hz (.inl ?_), fun h => ?_⟩
    · simpa [hb, entry] using h
    · have isEntry : kind = 1 := by simpa [hb, entry] using h
      subst isEntry
      exact sensorKindOf_no_switch (hz.resolve_left (by decide))
  · change ReadsField (sensorKindOf kind zone (some w)) 4 _
    have := w.isLt
    exact ⟨fun _ => sensorKindOf_ok hz (.inr rfl), fun h => by simp at h; omega⟩
  · exact ⟨fun h => by simp [present] at h; omega, fun _ => rfl⟩

theorem parseSensor_namesFirst (n : SensorId) (image : List Byte) (revision : Byte) :
    NamesFirst (parseSensor image revision) 1 (fieldTests (.sensor n) image) := by
  rw [parseSensor_eq]
  exact .cons (checkFlag_reads 1 _) fun _ _ => .cons (checkFin_reads 3 2 _ (by decide)) fun _ hk =>
    .cons (zoneField_reads (checkFin_val hk) _) fun _ hz =>
    .cons (switchField_reads (checkFin_val hk) (zoneField_present hz) _) fun _ _ =>
    .cons (checkFin_reads 4 5 _ (by decide)) fun _ _ => .nil _ _

/-! ## Images read back (R5, R7, R128) -/

theorem checkFlag_flagByte (field : Byte) (b : Bool) : checkFlag field (flagByte b) = .ok b := by cases b <;> rfl

theorem checkFin_idxByte {m : Nat} (hm : m ≤ 256) (field : Byte) (i : Fin m) : checkFin m field (idxByte i) = .ok i := by
  unfold checkFin
  rw [finOf_idxByte hm]
  rfl

theorem checkOptFin_optByte {m : Nat} (hm : m ≤ 255) (field : Byte) (o : Option (Fin m)) :
    checkOptFin m field (optByte idxByte o) = .ok o := by
  cases o with
  | none => rfl
  | some i =>
    have lt := i.isLt
    have present : idxByte i ≠ 0xFF := fun e => by
      have := congrArg BitVec.toNat e
      simp [idxByte, natByte] at this
      omega
    change checkOptFin m field (idxByte i) = _
    unfold checkOptFin
    rw [if_neg present, checkFin_idxByte (by omega)]
    rfl

theorem checkFin_kindByte (kind : SwitchKind) :
    ∃ i : Fin 3, checkFin 3 2 kind.byte = .ok i ∧ SwitchKind.ofFin i = kind := by
  cases kind
  exacts [⟨0, rfl, rfl⟩, ⟨1, rfl, rfl⟩, ⟨2, rfl, rfl⟩]

theorem checkFlag_directionByte (direction : Direction) :
    ∃ b : Bool, checkFlag 4 direction.byte = .ok b ∧ (if b then Direction.outward else .inward) = direction := by
  cases direction
  exacts [⟨false, rfl, rfl⟩, ⟨true, rfl, rfl⟩]

theorem setWidth_6_8 (x : BitVec 6) : (x.setWidth 8).setWidth 6 = x := by
  apply BitVec.eq_of_toNat_eq
  simp

theorem setWidth_4_8 (x : BitVec 4) : (x.setWidth 8).setWidth 4 = x := by
  apply BitVec.eq_of_toNat_eq
  simp

theorem checked_byte {α : Type} {field : Byte} {a : α} {lo hi k : Nat} {image : List Byte}
    (h : decide (lo ≤ (image.getD k 0).toNat ∧ (image.getD k 0).toNat ≤ hi) = true) :
    checked field (inRange lo hi (byteAt image k)) a = .ok a := checked_true ((inRange_eq ..).trans h)

theorem checked_word {α : Type} {field : Byte} {a : α} {lo hi k : Nat} {image : List Byte}
    (h : decide (lo ≤ 256 * (image.getD k 0).toNat + (image.getD (k + 1) 0).toNat ∧
      256 * (image.getD k 0).toNat + (image.getD (k + 1) 0).toNat ≤ hi) = true) :
    checked field (inRange lo hi (wordAt image k)) a = .ok a := checked_true ((inRange_word ..).trans h)

theorem parseZone_image {x : Zone} {z : ZoneId} (h : ∀ b ∈ fieldTests (.zone z) x.image, b = true) (revision : Byte) :
    parseZone x.image revision = .ok { x with revision := revision } := by
  simp only [fieldTests, List.forall_mem_cons] at h
  obtain ⟨-, lane, capacity, guardTime, stallTime, -⟩ := h
  have guardValue : wordAt x.image 3 = x.guardTime := bytes_joined _
  have stallValue : wordAt x.image 5 = x.stallTime := bytes_joined _
  unfold parseZone
  rw [show checkFlag 1 (byteAt x.image 0) = .ok x.defined from checkFlag_flagByte 1 _,
    checked_byte lane, checked_byte capacity, checked_word guardTime, checked_true ((zero_or_inRange_word ..).trans stallTime),
    guardValue, stallValue]
  rfl

theorem parseSwitch_image {x : Switch} {rs : RunState} {ps : Position} {w : SwitchId}
    (h : ∀ b ∈ fieldTests (.switch w) (x.image rs ps), b = true) (revision : Byte) :
    parseSwitch (x.image rs ps) revision = .ok { x with revision := revision } := by
  simp only [fieldTests, List.forall_mem_cons] at h
  obtain ⟨-, -, -, -, -, -, -, watch, actuation, hold, -⟩ := h
  obtain ⟨kind, readKind, isKind⟩ := checkFin_kindByte x.kind
  obtain ⟨outward, readDirection, isDirection⟩ := checkFlag_directionByte x.direction
  have watchValue : wordAt (x.image rs ps) 7 = x.watchTime := bytes_joined _
  have actuationValue : wordAt (x.image rs ps) 9 = x.actuationTime := bytes_joined _
  have holdValue : wordAt (x.image rs ps) 11 = x.holdLimit := bytes_joined _
  unfold parseSwitch
  rw [show checkFlag 1 (byteAt (x.image rs ps) 0) = .ok x.defined from checkFlag_flagByte 1 _,
    show checkFin 3 2 (byteAt (x.image rs ps) 1) = .ok kind from readKind,
    show checkFin 4 3 (byteAt (x.image rs ps) 2) = .ok x.owner from checkFin_idxByte (by decide) 3 _,
    show checkFlag 4 (byteAt (x.image rs ps) 3) = .ok outward from readDirection,
    show checkFin 64 5 (byteAt (x.image rs ps) 4) = .ok x.entryZone from checkFin_idxByte (by decide) 5 _,
    show checkFin 64 6 (byteAt (x.image rs ps) 5) = .ok x.targetZone from checkFin_idxByte (by decide) 6 _,
    show checkOptFin 64 7 (byteAt (x.image rs ps) 6) = .ok x.watchZone from checkOptFin_optByte (by decide) 7 _,
    checked_word watch, checked_word actuation,
    checked_word hold, watchValue, actuationValue, holdValue]
  change Except.ok (Switch.mk x.defined (SwitchKind.ofFin kind) x.owner (if outward then .outward else .inward)
    x.entryZone x.targetZone x.watchZone x.watchTime x.actuationTime x.holdLimit revision) = _
  rw [isKind, isDirection]

theorem parseSettings_image {x : Settings} (h : ∀ b ∈ fieldTests .settings x.image, b = true) (revision : Byte) :
    parseSettings x.image revision = .ok { x with revision := revision } := by
  simp only [fieldTests, List.forall_mem_cons] at h
  obtain ⟨caution, pit, life, floor, conflict, hold, busy, -⟩ := h
  have lifeValue : wordAt x.image 2 = x.intentLife := bytes_joined _
  have holdValue : wordAt x.image 6 = x.conflictHold := bytes_joined _
  unfold parseSettings
  rw [checked_byte caution, checked_byte pit,
    checked_word life, checked_byte floor,
    checked_byte conflict, checked_word hold,
    checked_byte busy, lifeValue, holdValue,
    show checkFlag 8 (byteAt x.image 9) = .ok x.autoCaution from checkFlag_flagByte 8 _,
    show checkFlag 9 (byteAt x.image 10) = .ok x.autoSave from checkFlag_flagByte 9 _]
  change Except.ok (Settings.mk ((x.cautionCap.setWidth 8).setWidth 6) ((x.pitLimit.setWidth 8).setWidth 6) x.intentLife
    ((x.pairingFloor.setWidth 8).setWidth 4) ((x.conflictCap.setWidth 8).setWidth 6) x.conflictHold
    ((x.busyCap.setWidth 8).setWidth 6) x.autoCaution x.autoSave revision) = _
  simp only [setWidth_6_8, setWidth_4_8]

/-! ### The image of a sensor, whose unused fields may hold any value in range (R7) -/

/-- The switch byte of a sensor that needs no switch passes its test. -/
theorem switchField_unused {kind : Fin 3} {zone : Option ZoneId} {made : SensorKind} {b : Byte} {test : Bool}
    (h : (decide (0 ≤ b.toNat ∧ b.toNat ≤ 31) || (decide (b.toNat = 255) && test)) = true)
    (hk : ∀ switch : Option SwitchId, sensorKindOf kind zone switch = .ok made) :
    switchField kind zone b = .ok made := by
  have weaker : (decide (0 ≤ b.toNat ∧ b.toNat ≤ 31) || decide (b.toNat = 255)) = true := by
    rw [Bool.or_eq_true, Bool.and_eq_true] at h
    rw [Bool.or_eq_true]
    exact h.imp_right And.left
  obtain ⟨switch, read⟩ := (checkOptFin_reads 32 4 b (by decide)).1 weaker
  unfold switchField
  rw [show checkOptFin 32 4 b = .ok switch from read]
  exact hk switch

/-- A sensor's kind is read from its three bytes: the bytes it needs name its zone and switch. -/
theorem kindFields_read {kind : SensorKind} {k zone switch : Byte}
    (hz : (decide (0 ≤ zone.toNat ∧ zone.toNat ≤ 63) || (decide (zone.toNat = 255) && decide (k.toNat = 2))) = true)
    (hw : (decide (0 ≤ switch.toNat ∧ switch.toNat ≤ 31) || (decide (switch.toNat = 255) && decide (k.toNat ≠ 1))) = true)
    (h : k = 0 ∧ (∃ z : ZoneId, zone = BitVec.ofNat 8 z.val ∧ kind = .boundary z) ∨
      k = 1 ∧ (∃ (z : ZoneId) (w : SwitchId), zone = BitVec.ofNat 8 z.val ∧ switch = BitVec.ofNat 8 w.val ∧
        kind = .entry z w) ∨
      k = 2 ∧ kind = .pairing) :
    ∃ (i : Fin 3) (found : Option ZoneId), checkFin 3 2 k = .ok i ∧ zoneField i zone = .ok found ∧
      switchField i found switch = .ok kind := by
  have readZone : ∀ (z : ZoneId) (i : Fin 3), zoneField i (BitVec.ofNat 8 z.val) = .ok (some z) := fun z i => by
    unfold zoneField
    rw [show checkOptFin 64 3 (BitVec.ofNat 8 z.val) = .ok (some z) from checkOptFin_optByte (by decide) 3 (some z)]
    exact checked_true (Bool.or_true _)
  obtain ⟨rfl, z, rfl, rfl⟩ | ⟨rfl, z, w, rfl, rfl, rfl⟩ | ⟨rfl, rfl⟩ := h
  · exact ⟨0, some z, rfl, readZone z 0, switchField_unused hw fun _ => rfl⟩
  · refine ⟨1, some z, rfl, readZone z 1, ?_⟩
    unfold switchField
    rw [show checkOptFin 32 4 (BitVec.ofNat 8 w.val) = .ok (some w) from checkOptFin_optByte (by decide) 4 (some w)]
    rfl
  · obtain ⟨found, read⟩ := (zoneField_reads (kind := 2) (k := 2) rfl zone).1 hz
    exact ⟨2, found, rfl, read, switchField_unused hw fun _ => rfl⟩

end Sys2Proof.Machine
end

section
/-! APPLY: the tests in order, and the records that an apply replaces (R5, R7, R8, R9, R57, R128, R158). -/

namespace Sys2Proof.Machine

-- One after the other, the proofs need no thread each.
set_option Elab.async false

/-! ## The request -/

theorem State.setStaging_taken (s : State) (p : PortId) (x : Option Staging) :
    (s.taken p).setStaging p x = (s.setStaging p x).taken p := by
  simp [State.taken, State.setStaging, State.modPort]

theorem State.setStaging_hasRights (s : State) (p : PortId) (x : Option Staging) :
    (s.setStaging p x).hasRights = s.hasRights := by
  funext q
  unfold State.hasRights State.setStaging
  rw [State.modPort_ports]
  split <;> rfl

theorem State.setStaging_revisionOf (s : State) (p : PortId) (x : Option Staging) (ref : RecordRef) :
    (s.setStaging p x).revisionOf ref = s.revisionOf ref := by
  cases ref <;> simp only [State.revisionOf, State.setStaging_fields]

theorem State.taken_offerRaceControl (s : State) (p : PortId) (body : NoticeBody) :
    (s.taken p).offerRaceControl body = (s.offerRaceControl body).taken p := by
  unfold State.offerRaceControl
  rw [State.taken_hasRights, State.taken_offerWhere]

theorem State.taken_applyDone (s : State) (p : PortId) (ref : RecordRef) :
    (s.taken p).applyDone p ref = s.answer p (.done [ref.table, ref.index, (s.revisionOf ref).getD 0]) := by
  unfold State.applyDone
  rw [State.taken_done, State.taken_revisionOf]

/-- A staging is stale when the revision it was fetched at is not the record's. -/
theorem State.staleAgainst_iff (s : State) (st : Staging) :
    s.staleAgainst st = true ↔
      ∃ revision : Option Byte, st.mode = .conditional revision ∧ revision ≠ s.revisionOf st.ref := by
  unfold State.staleAgainst
  cases st.mode <;> simp

theorem exec_apply_empty {p : PortId} {s : State} (takes : s.takes p) (h : (s.ports[p]).staging = none) :
    exec (.apply p) s = .next (s.answer p (.refused .noStaging)) := by
  change Host.Outcome.next (s.request p (·.reqApply p)) = _
  rw [State.request_running p _ takes]
  unfold State.reqApply
  rw [State.taken_port_self]
  simp only [h, State.taken_refuse]

theorem exec_apply_staged {p : PortId} {s : State} (takes : s.takes p) {st : Staging}
    (h : (s.ports[p]).staging = some st) : exec (.apply p) s = .next ((s.taken p).applyStaged p st) := by
  change Host.Outcome.next (s.request p (·.reqApply p)) = _
  rw [State.request_running p _ takes]
  unfold State.reqApply
  rw [State.taken_port_self]
  simp only [h]

/-! ## Tests 1 to 4 (R158) -/

/-- The tests of R158 in order, on the state taken with the staging EMPTY. -/
theorem State.taken_applyStaged (s : State) (p : PortId) (st : Staging) :
    (s.taken p).applyStaged p st =
      if st.ref.readOnly = true then (s.setStaging p none).answer p (.refused .readOnly)
      else if (s.ports[p]).raceControl = false then (s.setStaging p none).answer p (.refused .notPermitted)
      else if st.ref.isGeometry = true ∧ s.geo.phase = .run then (s.setStaging p none).answer p (.refused .phase)
      else if ∃ revision : Option Byte, st.mode = .conditional revision ∧ revision ≠ s.revisionOf st.ref then
        (s.setStaging p none).answer p (.refused .staleRecord)
      else ((s.setStaging p none).taken p).applyRecord p st.ref st.image := by
  have rights : s.hasRights p = (s.ports[p]).raceControl := rfl
  unfold State.applyStaged
  simp only [State.setStaging_taken, State.staleAgainst_iff, State.taken_refuse, State.taken_hasRights,
    State.setStaging_hasRights, rights, Bool.not_eq_true, State.taken_fields, State.setStaging_fields,
    State.taken_revisionOf, State.setStaging_revisionOf]

/-- A record that may be written only in LAYOUT, in LAYOUT, passes the test of the phase. -/
theorem not_run_of_layout {geometry : Prop} {phase : Phase} (h : geometry → phase = .layout) :
    ¬ (geometry ∧ phase = .run) := fun ⟨isGeometry, run⟩ => Phase.noConfusion ((h isGeometry).symm.trans run)

/-- Tests 1 to 4 passed, the table's own part of the apply is carried out with the staging EMPTY. -/
theorem exec_apply_of_mayApply {p : PortId} {s : State} {st : Staging} (h : s.mayApply p st) :
    exec (.apply p) s = .next (((s.setStaging p none).taken p).applyRecord p st.ref st.image) := by
  obtain ⟨takes, staged, writable, rights, layout, fresh⟩ := h
  rw [exec_apply_staged takes staged, State.taken_applyStaged, if_neg (ne_true_of_eq_false writable),
    if_neg (ne_false_of_eq_true rights), if_neg (not_run_of_layout layout),
    if_neg (fun ⟨revision, mode, stale⟩ => stale (fresh revision mode))]

theorem RecordRef.readOnly_of_isGeometry {ref : RecordRef} (h : ref.isGeometry = true) : ref.readOnly = false := by
  cases ref with
  | zone | switch | sensor | binding | marshal | settings => rfl
  | handset | car => cases h

/-! ## Test 5: the first field out of range (R9) -/

section
variable {s : State} {p : PortId} {image : List Byte}

theorem State.applyZone_error {z : ZoneId} {field : Byte}
    (h : parseZone image (s.geo.zones[z].revision + 1) = .error field) :
    s.applyZone p z image = s.refuse p (.range field) := by
  simp only [State.applyZone, h]

theorem State.applySwitch_error {w : SwitchId} {field : Byte}
    (h : parseSwitch image (s.geo.switches[w].revision + 1) = .error field) :
    s.applySwitch p w image = s.refuse p (.range field) := by
  simp only [State.applySwitch, h]

theorem State.applySensor_error {n : SensorId} {field : Byte}
    (h : parseSensor image (s.geo.sensors[n].revision + 1) = .error field) :
    s.applySensor p n image = s.refuse p (.range field) := by
  simp only [State.applySensor, h]

theorem State.applyBinding_error {c : CarId} {field : Byte} (h : parseBinding image = .error field) :
    s.applyBinding p c image = s.refuse p (.range field) := by
  simp only [State.applyBinding, h]

theorem State.applySettings_error {field : Byte}
    (h : parseSettings image (s.course.settings.revision + 1) = .error field) :
    s.applySettings p image = s.refuse p (.range field) := by
  simp only [State.applySettings, h]

/-- A record with a field out of range is refused by the first such field. -/
theorem State.applyRecord_refuses {ref : RecordRef} {k : Nat}
    (before : ∀ j : Nat, j < k → (fieldTests ref image)[j]? = some true)
    (fails : (fieldTests ref image)[k]? = some false) :
    s.applyRecord p ref image = s.refuse p (.range (BitVec.ofNat 8 (k + 1))) := by
  rw [Nat.add_comm]
  cases ref with
  | zone z => exact State.applyZone_error (parseZone_namesFirst z image _ k before fails)
  | switch w => exact State.applySwitch_error (parseSwitch_namesFirst w image _ k before fails)
  | sensor n => exact State.applySensor_error (parseSensor_namesFirst n image _ k before fails)
  | binding c => exact State.applyBinding_error (parseBinding_namesFirst c image k before fails)
  | settings => exact State.applySettings_error (parseSettings_namesFirst image _ k before fails)
  | marshal m => cases k <;> cases fails
  | handset h => cases fails
  | car c => cases fails

end

/-- Settles O20, test by test: each refusal is given on the state taken with its staging EMPTY. -/
theorem applyTestsInOrder : Obligations.ApplyTestsInOrder := by
  unfold Obligations.ApplyTestsInOrder
  intro p s takes
  refine ⟨exec_apply_empty takes, fun st r staged refused => ?_⟩
  change _ = Host.Outcome.next ((s.setStaging p none).answer p (.refused r))
  obtain ⟨rfl, readOnly⟩ | ⟨rfl, writable, noRights⟩ | ⟨rfl, geometry, rights, run⟩ |
    ⟨rfl, writable, rights, layout, stale⟩ | ⟨k, rfl, may, before, fails⟩ := refused
  · rw [exec_apply_staged takes staged, State.taken_applyStaged, if_pos readOnly]
  · rw [exec_apply_staged takes staged, State.taken_applyStaged, if_neg (ne_true_of_eq_false writable), if_pos noRights]
  · rw [exec_apply_staged takes staged, State.taken_applyStaged,
      if_neg (ne_true_of_eq_false (RecordRef.readOnly_of_isGeometry geometry)), if_neg (ne_false_of_eq_true rights),
      if_pos ⟨geometry, run⟩]
  · rw [exec_apply_staged takes staged, State.taken_applyStaged, if_neg (ne_true_of_eq_false writable),
      if_neg (ne_false_of_eq_true rights), if_neg (not_run_of_layout layout), if_pos stale]
  · rw [exec_apply_of_mayApply may, State.applyRecord_refuses before fails, State.taken_refuse]

/-! ## The record replaced -/

section
variable {s : State} {p : PortId} {image : List Byte}

theorem State.applyZone_ok {z : ZoneId} {x : Zone} (h : parseZone image (s.geo.zones[z].revision + 1) = .ok x) :
    (s.taken p).applyZone p z image = (s.putZone z x).answer p (.done [0, idxByte z, x.revision]) := by
  have revision : (s.putZone z x).revisionOf (.zone z) = some x.revision :=
    congrArg (fun r : Zone => some r.revision) (modAt_get_self s.geo.zones z _)
  have replaced : (s.taken p).applyZone p z image = ((s.putZone z x).taken p).applyDone p (.zone z) := by
    simp only [State.applyZone, State.taken_fields, h]
    rfl
  rw [replaced, State.taken_applyDone, revision]
  rfl

theorem State.applySwitch_ok {w : SwitchId} {x : Switch}
    (h : parseSwitch image (s.geo.switches[w].revision + 1) = .ok x) :
    (s.taken p).applySwitch p w image = (s.putSwitchRecord w x).answer p (.done [1, idxByte w, x.revision]) := by
  have revision : (s.putSwitchRecord w x).revisionOf (.switch w) = some x.revision :=
    congrArg (fun r : Switch => some r.revision) (modAt_get_self s.geo.switches w _)
  have replaced : (s.taken p).applySwitch p w image = ((s.putSwitchRecord w x).taken p).applyDone p (.switch w) := by
    simp only [State.applySwitch, State.taken_fields, h]
    rfl
  rw [replaced, State.taken_applyDone, revision]
  rfl

theorem State.applySensor_ok {n : SensorId} {x : Sensor}
    (h : parseSensor image (s.geo.sensors[n].revision + 1) = .ok x) :
    (s.taken p).applySensor p n image = (s.putSensor n x).answer p (.done [2, idxByte n, x.revision]) := by
  have revision : (s.putSensor n x).revisionOf (.sensor n) = some x.revision :=
    congrArg (fun r : Sensor => some r.revision) (modAt_get_self s.geo.sensors n _)
  have replaced : (s.taken p).applySensor p n image = ((s.putSensor n x).taken p).applyDone p (.sensor n) := by
    simp only [State.applySensor, State.taken_fields, h]
    rfl
  rw [replaced, State.taken_applyDone, revision]
  rfl

theorem State.applySettings_ok {x : Settings}
    (h : parseSettings image (s.course.settings.revision + 1) = .ok x) :
    (s.taken p).applySettings p image =
      ((s.putSettings x).offerRaceControl (.settings x.revision)).answer p (.done [5, 0, x.revision]) := by
  have replaced : (s.taken p).applySettings p image =
      (((s.putSettings x).taken p).offerRaceControl (.settings x.revision)).applyDone p .settings := by
    simp only [State.applySettings, State.taken_fields, h]
    rfl
  rw [replaced, State.taken_offerRaceControl, State.taken_applyDone]
  simp only [State.revisionOf, State.offerRaceControl_fields]
  rfl

end

theorem bind_of_ok {α β : Type} {e : Except Byte α} {a : α} {f : α → Except Byte β} (h : e = .ok a) :
    (e >>= f) = f a := h ▸ rfl

/-- A sensor record in range read back, with the zone and switch that its kind needs (R7). -/
theorem parseSensor_image {n : SensorId} {kind : SensorKind} {defined : Bool} {owner : PortId} {k zone switch rev : Byte}
    (h : ∀ b ∈ fieldTests (.sensor n) [flagByte defined, k, zone, switch, idxByte owner, rev], b = true)
    (named : k = 0 ∧ (∃ z : ZoneId, zone = BitVec.ofNat 8 z.val ∧ kind = .boundary z) ∨
      k = 1 ∧ (∃ (z : ZoneId) (w : SwitchId), zone = BitVec.ofNat 8 z.val ∧ switch = BitVec.ofNat 8 w.val ∧
        kind = .entry z w) ∨
      k = 2 ∧ kind = .pairing) (revision : Byte) :
    parseSensor [flagByte defined, k, zone, switch, idxByte owner, rev] revision =
      .ok (Sensor.mk defined kind owner revision) := by
  simp only [fieldTests, List.forall_mem_cons] at h
  obtain ⟨-, -, zoneTest, switchTest, -⟩ := h
  obtain ⟨i, found, readKind, readZone, readSwitch⟩ :=
    kindFields_read (k := k) (zone := zone) (switch := switch) zoneTest switchTest named
  have readFlag : checkFlag 1 (flagByte defined) = .ok defined := checkFlag_flagByte 1 defined
  have readOwner : checkFin 4 5 (idxByte owner) = .ok owner := checkFin_idxByte (by decide) 5 owner
  rw [parseSensor_eq]
  exact (bind_of_ok readFlag).trans <| (bind_of_ok readKind).trans <| (bind_of_ok readZone).trans <|
    (bind_of_ok readSwitch).trans (bind_of_ok readOwner)

/-- Settles O21, table by table: the image staged reads back as the record, which replaces the one that stands. -/
theorem applyReplacesTheRecord : Obligations.ApplyReplacesTheRecord := by
  unfold Obligations.ApplyReplacesTheRecord
  intro p s st may inRange
  rw [exec_apply_of_mayApply may]
  obtain ⟨mode, ref, image, field⟩ := st
  refine ⟨?zone, ?switch, ?sensor, ?settings⟩
  case zone =>
    rintro z x rfl rfl
    exact congrArg Host.Outcome.next
      (State.applyZone_ok (s := s.setStaging p none) (p := p) (z := z)
        (parseZone_image inRange (s.geo.zones[z].revision + 1)))
  case switch =>
    rintro w x rs ps rfl rfl
    exact congrArg Host.Outcome.next
      (State.applySwitch_ok (s := s.setStaging p none) (p := p) (w := w)
        (parseSwitch_image inRange (s.geo.switches[w].revision + 1)))
  case sensor =>
    rintro n kind defined owner k zone switch rev rfl rfl named
    have flag : (if defined = true then (1 : Byte) else 0) = flagByte defined := by cases defined <;> rfl
    rw [flag] at inRange ⊢
    exact congrArg Host.Outcome.next
      (State.applySensor_ok (s := s.setStaging p none) (p := p) (n := n)
        (parseSensor_image inRange named (s.geo.sensors[n].revision + 1)))
  case settings =>
    rintro x rfl rfl
    exact congrArg Host.Outcome.next
      (State.applySettings_ok (s := s.setStaging p none) (p := p)
        (parseSettings_image inRange (s.course.settings.revision + 1)))

end Sys2Proof.Machine
end

section
/-! Handset records edited by identity: what a change of a binding or of a marshal entry carries to the Handset Table, record
by record (R20, R33, R45, R61). -/

namespace Sys2Proof.Machine

-- One after the other, the proofs need no thread each.
set_option Elab.async false

/-! ## One record edited -/

/-- The record if it is to be kept: one that is LOST, unbound and no marshal's is freed (R20, R33). -/
def Handset.kept (r : Handset) : Option Handset :=
  if r.link = .lost ∧ r.boundCar = none ∧ r.marshal = false then none else some r

theorem Handset.kept_bound {r : Handset} {c : CarId} (h : r.boundCar = some c) : r.kept = some r :=
  if_neg fun ⟨_, unbound, _⟩ => Option.some_ne_none c (h.symm.trans unbound)

theorem Handset.kept_marshal {r : Handset} (h : r.marshal = true) : r.kept = some r :=
  if_neg fun ⟨_, _, unlisted⟩ => Bool.noConfusion (h.symm.trans unlisted)

theorem Handset.kept_eq_some {r q : Handset} (h : r.kept = some q) : q = r := by
  unfold Handset.kept at h
  split at h
  · cases h
  · exact (Option.some.inj h).symm

/-- The record that holds an identity is rewritten by f, and freed if nobody has to do with it any more. -/
def State.editRecord (s : State) (i : Ident) (f : Handset → Handset) : State :=
  match s.handsetOf i with
  | some h => (s.modHandset h f).freeIfForsaken h
  | none => s

theorem State.freeIfForsaken_of_kept {s : State} {h : HandsetId} {r : Handset} (e : s.handsets.records[h] = some r)
    (kept : r.kept = some r) : s.freeIfForsaken h = s := by
  obtain ⟨q, hq, lost, unbound, unlisted, -⟩ | ⟨-, same⟩ := s.freeIfForsaken_cases h
  · cases Option.some.inj (e.symm.trans hq)
    rw [Handset.kept, if_pos ⟨lost, unbound, unlisted⟩] at kept
    cases kept
  · exact same

theorem State.unbindHandset_eq (s : State) (i : Ident) :
    s.unbindHandset i = s.editRecord i fun r => { r with boundCar := none } := rfl

theorem State.flagMarshal_eq (s : State) (i : Ident) (flag : Bool) :
    s.flagMarshal i flag = s.editRecord i fun r => { r with marshal := flag } := rfl

/-- A record that names a car is not freed. -/
theorem State.bindHandset_eq (s : State) (i : Ident) (c : CarId) :
    s.bindHandset i c = s.editRecord i fun r => { r with boundCar := some c } := by
  unfold State.bindHandset State.editRecord
  cases found : s.handsetOf i with
  | none => rfl
  | some h =>
    obtain ⟨r, hr, -⟩ := State.handsetOf_spec found
    refine (State.freeIfForsaken_of_kept (r := { r with boundCar := some c }) ?_ (Handset.kept_bound rfl)).symm
    rw [State.modHandset_records, if_pos rfl, hr]
    rfl

/-- No identity is held by two handset records (R19). -/
def State.recordsUnique (s : State) : Prop :=
  ∀ (h k : HandsetId) (a b : Handset), s.handsets.records[h] = some a → s.handsets.records[k] = some b →
    a.identity = b.identity → h = k

theorem State.identitiesOk.recordsUnique {s : State} (ok : s.identitiesOk) : s.recordsUnique := by
  obtain ⟨-, -, -, unique, -⟩ := ok
  exact unique

/-- A freed record is the one at its place; every other stays. -/
theorem State.freeIfForsaken_records (s : State) (h k : HandsetId) :
    (s.freeIfForsaken h).handsets.records[k] =
      if k = h then (s.handsets.records[k]).bind Handset.kept else s.handsets.records[k] := by
  obtain ⟨r, hr, lost, unbound, unlisted, e⟩ | ⟨stays, e⟩ := s.freeIfForsaken_cases h
  · have freed : (s.freeHandset h).handsets.records[k] = if k = h then none else s.handsets.records[k] :=
      modAt_get s.handsets.records h k _
    rw [e, freed]
    split
    · next same =>
      subst same
      rw [hr]
      exact (if_pos ⟨lost, unbound, unlisted⟩).symm
    · rfl
  · rw [e]
    split
    · next same =>
      subst same
      cases hr : s.handsets.records[k] with
      | none => rfl
      | some r => exact (if_neg (stays r hr)).symm
    · rfl

/-- Of all records, an edit touches the one that holds the identity. -/
theorem State.editRecord_records {s : State} (unique : s.recordsUnique) (i : Ident) (f : Handset → Handset)
    (k : HandsetId) :
    (s.editRecord i f).handsets.records[k] =
      (s.handsets.records[k]).bind fun r => if r.identity = i then (f r).kept else some r := by
  unfold State.editRecord
  split
  · next h found =>
    obtain ⟨q, hq, holds⟩ := State.handsetOf_spec found
    rw [State.freeIfForsaken_records, State.modHandset_records]
    split
    · next same =>
      subst same
      rw [hq]
      exact (if_pos holds).symm
    · next other =>
      cases hr : s.handsets.records[k] with
      | none => rfl
      | some r => exact (if_neg fun e => other (unique k h r q hr hq (e.trans holds.symm))).symm
  · next absent =>
    cases hr : s.handsets.records[k] with
    | none => rfl
    | some r => exact (if_neg (State.handsetOf_eq_none.1 absent k r hr)).symm

theorem State.editRecord_unique {s : State} (unique : s.recordsUnique) (i : Ident) {f : Handset → Handset}
    (keeps : ∀ r : Handset, (f r).identity = r.identity) : (s.editRecord i f).recordsUnique := by
  have origin : ∀ (k : HandsetId) (q : Handset), (s.editRecord i f).handsets.records[k] = some q →
      ∃ r : Handset, s.handsets.records[k] = some r ∧ q.identity = r.identity := fun k q hq => by
    rw [State.editRecord_records unique, Option.bind_eq_some_iff] at hq
    obtain ⟨r, hr, hq⟩ := hq
    refine ⟨r, hr, ?_⟩
    split at hq
    · rw [Handset.kept_eq_some hq, keeps]
    · rw [Option.some.inj hq]
  intro h k a b ha hb e
  obtain ⟨x, hx, ex⟩ := origin h a ha
  obtain ⟨y, hy, ey⟩ := origin k b hb
  exact unique h k x y hx hy (ex.symm.trans (e.trans ey))

/-! ## Free records stay free, and a freed one arms the full-alert flag -/

/-- From s to t records may be freed, none is taken, and the full-alert flag follows (R33). -/
def State.onlyFrees (s t : State) : Prop :=
  s.armsOnFreeing t ∧ ∀ h : HandsetId, s.handsets.records[h] = none → t.handsets.records[h] = none

theorem State.onlyFrees_of_none_freed {s t : State} (flag : t.handsets.fullAlert = s.handsets.fullAlert)
    (same : ∀ h : HandsetId, t.handsets.records[h] = none ↔ s.handsets.records[h] = none) : s.onlyFrees t :=
  ⟨⟨fun ⟨h, used, freed⟩ => absurd ((same h).1 freed) used, fun _ => flag⟩, fun h => (same h).2⟩

theorem State.onlyFrees_of_eq {s t : State} (h : t.handsets = s.handsets) : s.onlyFrees t :=
  State.onlyFrees_of_none_freed (by rw [h]) fun k => by rw [h]

theorem State.onlyFrees.trans {s t u : State} (h : s.onlyFrees t) (g : t.onlyFrees u) : s.onlyFrees u := by
  obtain ⟨⟨armed, kept⟩, free⟩ := h
  obtain ⟨⟨armed', kept'⟩, free'⟩ := g
  refine ⟨⟨fun ⟨k, used, freed⟩ => ?_, fun none_freed => ?_⟩, fun k e => free' k (free k e)⟩
  · by_cases later : ∃ k : HandsetId, t.handsets.records[k] ≠ none ∧ u.handsets.records[k] = none
    · exact armed' later
    · have stays : ∀ k : HandsetId, t.handsets.records[k] ≠ none → u.handsets.records[k] ≠ none :=
        fun k hk e => later ⟨k, hk, e⟩
      rw [kept' stays]
      exact armed ⟨k, used, by_contra fun e => stays k e freed⟩
  · rw [kept' fun k hk => none_freed k fun e => hk (free k e), kept fun k hk e => none_freed k hk (free' k e)]

theorem State.modHandset_onlyFrees (s : State) (h : HandsetId) (f : Handset → Handset) : s.onlyFrees (s.modHandset h f) :=
  State.onlyFrees_of_none_freed rfl fun k => by
    rw [State.modHandset_records]
    split
    · exact Option.map_eq_none_iff
    · exact Iff.rfl

theorem State.freeIfForsaken_onlyFrees (s : State) (h : HandsetId) : s.onlyFrees (s.freeIfForsaken h) := by
  obtain ⟨r, hr, -, -, -, e⟩ | ⟨-, e⟩ := s.freeIfForsaken_cases h
  · have freed : ∀ k : HandsetId, (s.freeHandset h).handsets.records[k] = if k = h then none else s.handsets.records[k] :=
      fun k => modAt_get s.handsets.records h k _
    rw [e]
    refine ⟨⟨fun _ => rfl, fun none_freed => ?_⟩, fun k hk => ?_⟩
    · have used : s.handsets.records[h] ≠ none := by
        rw [hr]
        exact Option.some_ne_none r
      exact absurd ((freed h).trans (if_pos rfl)) (none_freed h used)
    · rw [freed, hk, ite_self]
  · rw [e]
    exact State.onlyFrees_of_eq rfl

theorem State.editRecord_onlyFrees (s : State) (i : Ident) (f : Handset → Handset) : s.onlyFrees (s.editRecord i f) := by
  unfold State.editRecord
  split
  · exact (s.modHandset_onlyFrees ..).trans (State.freeIfForsaken_onlyFrees ..)
  · exact State.onlyFrees_of_eq rfl

/-! ## An identity given up and another taken -/

/-- The record of the identity given up is rewritten by lose, then that of the identity taken by gain. -/
def State.exchangeRecords (s : State) (old new : Option Ident) (lose gain : Handset → Handset) : State :=
  let s := old.elim s (s.editRecord · lose)
  new.elim s (s.editRecord · gain)

/-- What an exchange makes of a record in use. -/
def Handset.exchanged (r : Handset) (old new : Option Ident) (lose gain : Handset → Handset) : Option Handset :=
  if new = some r.identity then some (gain r) else if old = some r.identity then (lose r).kept else some r

section
variable {s : State} {lose gain : Handset → Handset}

theorem State.exchangeRecords_onlyFrees (old new : Option Ident) : s.onlyFrees (s.exchangeRecords old new lose gain) := by
  have taken : ∀ u : State, u.onlyFrees (new.elim u (u.editRecord · gain)) := fun u => by
    cases new with
    | none => exact State.onlyFrees_of_eq rfl
    | some i => exact u.editRecord_onlyFrees i gain
  refine .trans ?_ (taken _)
  cases old with
  | none => exact State.onlyFrees_of_eq rfl
  | some i => exact s.editRecord_onlyFrees i lose

/-- An edit as the searches of an exchange read it. -/
theorem State.editRecord_elim_records {s : State} (unique : s.recordsUnique) (i : Option Ident) (f : Handset → Handset)
    (k : HandsetId) :
    (i.elim s (s.editRecord · f)).handsets.records[k] =
      (s.handsets.records[k]).bind fun r => if i = some r.identity then (f r).kept else some r := by
  cases i with
  | none => exact (Option.bind_fun_some _).symm
  | some i =>
    refine (State.editRecord_records unique i f k).trans ?_
    simp only [Option.some.injEq, eq_comm]

theorem State.exchangeRecords_records (unique : s.recordsUnique) {old new : Option Ident} (differ : old ≠ new)
    (loses : ∀ r : Handset, (lose r).identity = r.identity) (gains : ∀ r : Handset, (gain r).kept = some (gain r))
    (k : HandsetId) :
    (s.exchangeRecords old new lose gain).handsets.records[k] =
      (s.handsets.records[k]).bind fun r => r.exchanged old new lose gain := by
  have unique' : (old.elim s (s.editRecord · lose)).recordsUnique := by
    cases old with
    | none => exact unique
    | some i => exact State.editRecord_unique unique i loses
  unfold State.exchangeRecords
  rw [State.editRecord_elim_records unique', State.editRecord_elim_records unique, Option.bind_assoc]
  congr 1
  funext r
  unfold Handset.exchanged
  by_cases gives : old = some r.identity
  · have untaken : ¬ new = some r.identity := fun e => differ (gives.trans e.symm)
    rw [if_pos gives, if_neg untaken]
    cases e : (lose r).kept with
    | none => rfl
    | some q =>
      rw [Option.bind_some, if_neg]
      rw [Handset.kept_eq_some e, loses]
      exact untaken
  · rw [if_neg gives, Option.bind_some, gains]

end

end Sys2Proof.Machine
end

section
/-! A car or a marshal entry that changes its identity, and what that leaves of the Handset Table and of the identities
(R20, R41, R45, R54, R57 to R61). -/

namespace Sys2Proof.Machine

-- One after the other, the proofs need no thread each.
set_option Elab.async false

/-! ## What an exchange leaves of one record -/

def Handset.unbind (r : Handset) : Handset := { r with boundCar := none }

def Handset.bindTo (c : CarId) (r : Handset) : Handset := { r with boundCar := some c }

def Handset.flag (marshal : Bool) (r : Handset) : Handset := { r with marshal := marshal }

section
variable {r q : Handset} {old new : Option Ident} {lose gain : Handset → Handset}

theorem Handset.exchanged_gain (h : new = some r.identity) : r.exchanged old new lose gain = some (gain r) := if_pos h

theorem Handset.exchanged_lose (h : new ≠ some r.identity) (g : old = some r.identity) :
    r.exchanged old new lose gain = (lose r).kept := (if_neg h).trans (if_pos g)

theorem Handset.exchanged_other (h : new ≠ some r.identity) (g : old ≠ some r.identity) :
    r.exchanged old new lose gain = some r := (if_neg h).trans (if_neg g)

/-- A record that an exchange leaves in use has gained the identity, lost it, or has nothing to do with it. -/
theorem Handset.exchanged_cases (h : r.exchanged old new lose gain = some q) :
    (new = some r.identity ∧ q = gain r) ∨ (new ≠ some r.identity ∧ old = some r.identity ∧ q = lose r) ∨
      (new ≠ some r.identity ∧ old ≠ some r.identity ∧ q = r) := by
  by_cases takes : new = some r.identity
  · rw [Handset.exchanged_gain takes] at h
    exact .inl ⟨takes, (Option.some.inj h).symm⟩
  · by_cases gives : old = some r.identity
    · rw [Handset.exchanged_lose takes gives] at h
      exact .inr (.inl ⟨takes, gives, Handset.kept_eq_some h⟩)
    · rw [Handset.exchanged_other takes gives] at h
      exact .inr (.inr ⟨takes, gives, (Option.some.inj h).symm⟩)

end

/-! ## A car's identity carried to its neighbours (R45) -/

theorem State.carryIdentity_handsets {old new : Option Ident} (s : State) (c : CarId) (h : old ≠ new) :
    (s.carryIdentity c old new).handsets =
      (s.exchangeRecords old new Handset.unbind (Handset.bindTo c)).handsets := by
  have gain : (fun (u : State) i => u.bindHandset i c) = fun u i => u.editRecord i (Handset.bindTo c) := by
    funext u i
    exact u.bindHandset_eq i c
  unfold State.carryIdentity
  rw [if_neg h]
  change (new.elim _ ((fun (u : State) i => u.bindHandset i c) _)).handsets = _
  rw [gain]
  rfl

theorem State.rebind_handsets (s : State) (c : CarId) (held : Option Held) (f : Binding → Binding) :
    (s.rebind c held f).handsets =
      (s.carryIdentity c (s.binding.bindings[c].held.map (·.identity)) (held.map (·.identity))).handsets := by
  simp only [State.rebind, State.changeBinding_fields]

theorem State.rebind_intents (s : State) (c : CarId) (held : Option Held) (f : Binding → Binding) :
    (s.rebind c held f).lane =
      (s.carryIdentity c (s.binding.bindings[c].held.map (·.identity)) (held.map (·.identity))).lane := by
  simp only [State.rebind, State.changeBinding_fields]

theorem State.carryIdentity_onlyFrees (s : State) (c : CarId) (old new : Option Ident) :
    s.onlyFrees (s.carryIdentity c old new) := by
  by_cases h : old = new
  · rw [h, State.carryIdentity_same]
    exact State.onlyFrees_of_eq rfl
  · obtain ⟨⟨armed, kept⟩, free⟩ :=
      State.exchangeRecords_onlyFrees (s := s) (lose := Handset.unbind) (gain := Handset.bindTo c) old new
    unfold State.onlyFrees State.armsOnFreeing
    rw [s.carryIdentity_handsets c h]
    exact ⟨⟨armed, kept⟩, free⟩

theorem State.rebind_onlyFrees (s : State) (c : CarId) (held : Option Held) (f : Binding → Binding) :
    s.onlyFrees (s.rebind c held f) := by
  obtain ⟨⟨armed, kept⟩, free⟩ :=
    s.carryIdentity_onlyFrees c (s.binding.bindings[c].held.map (·.identity)) (held.map (·.identity))
  unfold State.onlyFrees State.armsOnFreeing
  rw [State.rebind_handsets]
  exact ⟨⟨armed, kept⟩, free⟩

theorem State.carryIdentity_records {s : State} (unique : s.recordsUnique) (c : CarId) {old new : Option Ident}
    (differ : old ≠ new) (k : HandsetId) :
    (s.carryIdentity c old new).handsets.records[k] =
      (s.handsets.records[k]).bind fun r => r.exchanged old new Handset.unbind (Handset.bindTo c) := by
  rw [s.carryIdentity_handsets c differ]
  exact State.exchangeRecords_records (lose := Handset.unbind) unique differ (fun _ => rfl)
    (fun r => Handset.kept_bound (r := Handset.bindTo c r) rfl) k

/-- A change of a car's identity is carried to its neighbours as the statements say. -/
theorem State.rebind_neighboursFollow {s : State} (unique : s.recordsUnique) (c : CarId) (held : Option Held)
    (f : Binding → Binding) :
    s.neighboursFollow (s.rebind c held f) c (s.binding.bindings[c].held.map (·.identity)) (held.map (·.identity)) := by
  obtain ⟨arms, free⟩ := s.rebind_onlyFrees c held f
  refine ⟨fun same => ?_, fun differ => ⟨?_, arms, fun k => ⟨free k, fun r hr => ?_⟩⟩⟩
  · rw [State.rebind_handsets, State.rebind_intents, same, State.carryIdentity_same]
    exact ⟨rfl, rfl⟩
  · rw [State.rebind_intents, State.carryIdentity_lane s c differ]
  · have after := State.carryIdentity_records unique c differ k
    rw [hr, Option.bind_some] at after
    rw [State.rebind_handsets, after]
    refine ⟨Handset.exchanged_gain, fun gives lost unlisted => ?_, fun gives used => ?_, Handset.exchanged_other⟩
    · rw [Handset.exchanged_lose (fun takes => differ (gives.trans takes.symm)) gives]
      exact if_pos ⟨lost, rfl, unlisted⟩
    · rw [Handset.exchanged_lose (fun takes => differ (gives.trans takes.symm)) gives]
      refine if_neg fun ⟨lost, _, unlisted⟩ => used.elim (· lost) fun listed => ?_
      exact Bool.noConfusion (listed.symm.trans unlisted)

/-! ## A car rebound keeps the identities -/

/-- A BOUND or SUSPENDED holding has its record in use, for BOUND one that is not LOST (R44). -/
def State.backs (s : State) (a : Held) : Prop :=
  a.state = .bound ∨ a.state = .suspended → ∃ (h : HandsetId) (r : Handset), s.handsets.records[h] = some r ∧
    r.identity = a.identity ∧ (a.state = .bound → r.link ≠ .lost)

/-- No car but c and no marshal entry holds the identity (R57). -/
def State.openTo (s : State) (c : CarId) (i : Ident) : Prop :=
  (∀ (k : CarId) (a : Held), s.binding.bindings[k].held = some a → a.identity = i → k = c) ∧
    ∀ m : MarshalId, s.binding.marshals[m].identity ≠ some i

/-- With the bound cars mirrored, the record of the identity that a car holds names the car already. -/
theorem State.rebind_records {s : State} (ok : s.identitiesOk) (c : CarId) (held : Option Held) (f : Binding → Binding)
    (k : HandsetId) :
    (s.rebind c held f).handsets.records[k] = (s.handsets.records[k]).bind fun r =>
      r.exchanged (s.binding.bindings[c].held.map (·.identity)) (held.map (·.identity)) Handset.unbind
        (Handset.bindTo c) := by
  rw [State.rebind_handsets]
  by_cases same : s.binding.bindings[c].held.map (·.identity) = held.map (·.identity)
  · rw [same, State.carryIdentity_same]
    cases hr : s.handsets.records[k] with
    | none => rfl
    | some r =>
      by_cases holds : held.map (·.identity) = some r.identity
      · obtain ⟨a, ha, hi⟩ := Option.map_eq_some_iff.1 (same.trans holds)
        obtain ⟨-, -, -, -, mirror, -⟩ := ok
        have bound : r.boundCar = some c := ((mirror k r hr).1 c).2 ⟨a, ha, hi⟩
        rw [Option.bind_some, Handset.exchanged_gain holds, Handset.bindTo, ← bound]
      · exact (Handset.exchanged_other holds holds).symm
  · exact State.carryIdentity_records ok.recordsUnique c same k

theorem State.rebind_held (s : State) (c : CarId) (held : Option Held) (f : Binding → Binding) (k : CarId) :
    (s.rebind c held f).binding.bindings[k].held = if k = c then held else s.binding.bindings[k].held := by
  rw [State.rebind_bindings]
  split <;> rfl

/-- A car that takes an identity open to it, or gives up its own, leaves every record mirrored. -/
theorem State.rebind_mirror {s : State} (ok : s.identitiesOk) {c : CarId} {held : Option Held} (f : Binding → Binding)
    (free : ∀ a : Held, held = some a → s.openTo c a.identity) {k : HandsetId} {q : Handset}
    (hq : (s.rebind c held f).handsets.records[k] = some q) :
    (∀ x : CarId, q.boundCar = some x ↔
      ∃ a : Held, (s.rebind c held f).binding.bindings[x].held = some a ∧ a.identity = q.identity) ∧
    (q.marshal = true ↔ ∃ m : MarshalId, s.binding.marshals[m].identity = some q.identity) := by
  rw [State.rebind_records ok, Option.bind_eq_some_iff] at hq
  obtain ⟨cars, -, -, -, mirror, -⟩ := ok
  obtain ⟨r, hr, hq⟩ := hq
  obtain ⟨bound, listed⟩ := mirror k r hr
  obtain ⟨takes, rfl⟩ | ⟨other, gives, rfl⟩ | ⟨other, keeps, rfl⟩ := Handset.exchanged_cases hq
  · refine ⟨fun x => ?_, listed⟩
    obtain ⟨a, ha, hi⟩ := Option.map_eq_some_iff.1 takes
    obtain ⟨alone, -⟩ := free a ha
    rw [State.rebind_held]
    change some c = some x ↔ ∃ b : Held, _ ∧ b.identity = r.identity
    split
    · next same => exact iff_of_true (congrArg some same.symm) ⟨a, ha, hi⟩
    · next differ =>
      refine iff_of_false (fun e => differ (Option.some.inj e).symm) fun ⟨b, hb, e⟩ => ?_
      exact differ (alone x b hb (e.trans hi.symm))
  · refine ⟨fun x => iff_of_false (fun e => Option.some_ne_none x e.symm) ?_, listed⟩
    rintro ⟨b, hb, e⟩
    change b.identity = r.identity at e
    obtain ⟨a, ha, hi⟩ := Option.map_eq_some_iff.1 gives
    rw [State.rebind_held] at hb
    split at hb
    · exact other (Option.map_eq_some_iff.2 ⟨b, hb, e⟩)
    · next differ => exact differ (cars x c b a hb ha (e.trans hi.symm))
  · refine ⟨fun x => ?_, listed⟩
    rw [State.rebind_held]
    split
    · next same =>
      subst same
      refine iff_of_false (fun e => ?_) fun ⟨b, hb, e⟩ => other (Option.map_eq_some_iff.2 ⟨b, hb, e⟩)
      obtain ⟨b, hb, e⟩ := (bound x).1 e
      exact keeps (Option.map_eq_some_iff.2 ⟨b, hb, e⟩)
    · exact bound x

/-- A car that takes an identity open to it, in a state that the identity's record backs, or gives up its own, keeps the
identities. -/
theorem State.rebind_identitiesOk {s : State} (ok : s.identitiesOk) {c : CarId} {held : Option Held} (f : Binding → Binding)
    (free : ∀ a : Held, held = some a → s.openTo c a.identity) (back : ∀ a : Held, held = some a → s.backs a) :
    (s.rebind c held f).identitiesOk := by
  have recs := State.rebind_records ok c held f
  have mirrored := fun k q => State.rebind_mirror (k := k) (q := q) ok f free
  obtain ⟨cars, entries, apart, unique, mirror, startup, backed⟩ := ok
  unfold State.identitiesOk
  simp only [State.rebind_fields, State.rebind_held]
  refine ⟨fun x y a b ha hb e => ?_, entries, fun x m a ha => ?_, fun h k a b ha hb e => ?_, fun k q hq => ?_,
    fun on k => ?_, fun x a ha st => ?_⟩
  · split at ha
    · next atX =>
      split at hb
      · next atY => exact atX.trans atY.symm
      · exact atX.trans ((free a ha).1 y b hb e.symm).symm
    · split at hb
      · next atY => exact ((free b hb).1 x a ha e).trans atY.symm
      · exact cars x y a b ha hb e
  · split at ha
    · exact (free a ha).2 m
    · exact apart x m a ha
  · rw [recs, Option.bind_eq_some_iff] at ha hb
    obtain ⟨r, hr, ea⟩ := ha
    obtain ⟨q, hq, eb⟩ := hb
    have origin : ∀ {r q : Handset}, r.exchanged (s.binding.bindings[c].held.map (·.identity)) (held.map (·.identity))
        Handset.unbind (Handset.bindTo c) = some q → q.identity = r.identity := fun h => by
      obtain ⟨-, rfl⟩ | ⟨-, -, rfl⟩ | ⟨-, -, rfl⟩ := Handset.exchanged_cases h <;> rfl
    exact unique h k r q hr hq ((origin ea).symm.trans (e.trans (origin eb)))
  · simpa only [State.rebind_held] using mirrored k q hq
  · rw [recs, startup on k]
    rfl
  · split at ha
    · obtain ⟨k, r, hr, hi, alive⟩ := back a ha st
      refine ⟨k, Handset.bindTo c r, ?_, hi, alive⟩
      rw [recs, hr]
      exact Handset.exchanged_gain (Option.map_eq_some_iff.2 ⟨a, ha, hi.symm⟩)
    · next differ =>
      obtain ⟨k, r, hr, hi, alive⟩ := backed x a ha st
      have kept : s.binding.bindings[c].held.map (·.identity) ≠ some r.identity := fun gives => by
        obtain ⟨b, hb, e⟩ := Option.map_eq_some_iff.1 gives
        exact differ (cars x c a b ha hb (hi.symm.trans e.symm))
      by_cases takes : held.map (·.identity) = some r.identity
      · exact ⟨k, Handset.bindTo c r, by rw [recs, hr]; exact Handset.exchanged_gain takes, hi, alive⟩
      · exact ⟨k, r, by rw [recs, hr]; exact Handset.exchanged_other takes kept, hi, alive⟩

/-! ## A marshal entry's identity carried to the Handset Table (R61) -/

theorem State.carryMarshal_handsets {old new : Option Ident} (s : State) (h : old ≠ new) :
    (s.carryMarshal old new).handsets = (s.exchangeRecords old new (Handset.flag false) (Handset.flag true)).handsets := by
  unfold State.carryMarshal
  rw [if_neg h]
  rfl

theorem State.carryMarshal_same (s : State) (i : Option Ident) : s.carryMarshal i i = s := if_pos rfl

theorem State.carryMarshal_onlyFrees (s : State) (old new : Option Ident) : s.onlyFrees (s.carryMarshal old new) := by
  by_cases h : old = new
  · rw [h, State.carryMarshal_same]
    exact State.onlyFrees_of_eq rfl
  · obtain ⟨⟨armed, kept⟩, free⟩ :=
      State.exchangeRecords_onlyFrees (s := s) (lose := Handset.flag false) (gain := Handset.flag true) old new
    unfold State.onlyFrees State.armsOnFreeing
    rw [s.carryMarshal_handsets h]
    exact ⟨⟨armed, kept⟩, free⟩

theorem State.carryMarshal_records {s : State} (unique : s.recordsUnique) {old new : Option Ident} (differ : old ≠ new)
    (k : HandsetId) :
    (s.carryMarshal old new).handsets.records[k] =
      (s.handsets.records[k]).bind fun r => r.exchanged old new (Handset.flag false) (Handset.flag true) := by
  rw [s.carryMarshal_handsets differ]
  exact State.exchangeRecords_records (lose := Handset.flag false) unique differ (fun _ => rfl)
    (fun r => Handset.kept_marshal (r := Handset.flag true r) rfl) k

/-- With the marshal flags mirrored, the record of the identity that an entry holds is flagged already. -/
theorem State.carryMarshal_records_of_entry {s : State} (ok : s.identitiesOk) (m : MarshalId) (new : Option Ident)
    (k : HandsetId) :
    (s.carryMarshal s.binding.marshals[m].identity new).handsets.records[k] =
      (s.handsets.records[k]).bind fun r =>
        r.exchanged s.binding.marshals[m].identity new (Handset.flag false) (Handset.flag true) := by
  by_cases same : s.binding.marshals[m].identity = new
  · rw [same, State.carryMarshal_same]
    cases hr : s.handsets.records[k] with
    | none => rfl
    | some r =>
      by_cases holds : new = some r.identity
      · obtain ⟨-, -, -, -, mirror, -⟩ := ok
        have listed : r.marshal = true := (mirror k r hr).2.2 ⟨m, same.trans holds⟩
        rw [Option.bind_some, Handset.exchanged_gain holds, Handset.flag, ← listed]
      · exact (Handset.exchanged_other holds holds).symm
  · exact State.carryMarshal_records ok.recordsUnique same k

/-- Marshal entry m takes an identity, or none, as one change carried to the Handset Table (R61). -/
def State.relist (s : State) (m : MarshalId) (new : Option Ident) : State :=
  (s.carryMarshal s.binding.marshals[m].identity new).putMarshal m
    (MarshalEntry.mk new (s.binding.marshals[m].revision + 1) .dirty)

theorem State.relist_entry (s : State) (m : MarshalId) (new : Option Ident) (k : MarshalId) :
    (s.relist m new).binding.marshals[k] =
      if k = m then MarshalEntry.mk new (s.binding.marshals[m].revision + 1) .dirty else s.binding.marshals[k] := by
  simp only [State.relist, State.putMarshal_fields, State.carryMarshal_fields]
  exact modAt_get s.binding.marshals m k _

theorem State.relist_listed (s : State) (m : MarshalId) (new : Option Ident) (k : MarshalId) :
    (s.relist m new).binding.marshals[k].identity = if k = m then new else s.binding.marshals[k].identity := by
  rw [State.relist_entry]
  split <;> rfl

/-- No car and no marshal entry but m holds the identity (R61). -/
def State.openToEntry (s : State) (m : MarshalId) (i : Ident) : Prop :=
  (∀ (c : CarId) (a : Held), s.binding.bindings[c].held = some a → a.identity ≠ i) ∧
    ∀ n : MarshalId, s.binding.marshals[n].identity = some i → n = m

theorem State.relist_mirror {s : State} (ok : s.identitiesOk) {m : MarshalId} {new : Option Ident}
    (free : ∀ i : Ident, new = some i → s.openToEntry m i) {k : HandsetId} {q : Handset}
    (hq : (s.relist m new).handsets.records[k] = some q) :
    (∀ c : CarId, q.boundCar = some c ↔
      ∃ a : Held, s.binding.bindings[c].held = some a ∧ a.identity = q.identity) ∧
    (q.marshal = true ↔ ∃ n : MarshalId, (s.relist m new).binding.marshals[n].identity = some q.identity) := by
  have recs := State.carryMarshal_records_of_entry ok m new k
  obtain ⟨-, entries, -, -, mirror, -⟩ := ok
  change (s.carryMarshal s.binding.marshals[m].identity new).handsets.records[k] = some q at hq
  rw [recs, Option.bind_eq_some_iff] at hq
  obtain ⟨r, hr, hq⟩ := hq
  obtain ⟨bound, listed⟩ := mirror k r hr
  simp only [State.relist_listed]
  obtain ⟨takes, rfl⟩ | ⟨other, gives, rfl⟩ | ⟨other, keeps, rfl⟩ := Handset.exchanged_cases hq
  · exact ⟨bound, iff_of_true rfl ⟨m, (if_pos rfl).trans takes⟩⟩
  · refine ⟨bound, iff_of_false Bool.false_ne_true ?_⟩
    rintro ⟨n, hn⟩
    split at hn
    · exact other hn
    · next differ => exact differ (entries n m r.identity hn gives)
  · refine ⟨bound, listed.trans ⟨fun ⟨n, hn⟩ => ⟨n, ?_⟩, fun ⟨n, hn⟩ => ⟨n, ?_⟩⟩⟩
    · rw [if_neg]
      · exact hn
      · rintro rfl
        exact keeps hn
    · split at hn
      · exact absurd hn other
      · exact hn

/-- An entry that takes an identity open to it, or gives up its own, keeps the identities. -/
theorem State.relist_identitiesOk {s : State} (ok : s.identitiesOk) {m : MarshalId} {new : Option Ident}
    (free : ∀ i : Ident, new = some i → s.openToEntry m i) : (s.relist m new).identitiesOk := by
  have mirrored := fun k q => State.relist_mirror (k := k) (q := q) ok free
  have recs : ∀ k : HandsetId, (s.relist m new).handsets.records[k] = _ := State.carryMarshal_records_of_entry ok m new
  obtain ⟨cars, entries, apart, unique, mirror, startup, backed⟩ := ok
  have seq : (s.relist m new).seq = s.seq := by
    simp only [State.relist, State.putMarshal_fields, State.carryMarshal_fields]
  have bindings : (s.relist m new).binding.bindings = s.binding.bindings := by
    simp only [State.relist, State.putMarshal_fields, State.carryMarshal_fields]
  unfold State.identitiesOk
  rw [seq, bindings]
  refine ⟨cars, fun x y i hx hy => ?_, fun c x a ha hx => ?_, fun h k a b ha hb e => ?_, mirrored, fun on k => ?_,
    fun c a ha st => ?_⟩
  · rw [State.relist_listed] at hx hy
    split at hx
    · next atX =>
      split at hy
      · next atY => exact atX.trans atY.symm
      · exact atX.trans ((free i hx).2 y hy).symm
    · split at hy
      · next atY => exact ((free i hy).2 x hx).trans atY.symm
      · exact entries x y i hx hy
  · rw [State.relist_listed] at hx
    split at hx
    · exact (free a.identity hx).1 c a ha rfl
    · exact apart c x a ha hx
  · rw [recs, Option.bind_eq_some_iff] at ha hb
    obtain ⟨r, hr, ea⟩ := ha
    obtain ⟨q, hq, eb⟩ := hb
    have origin : ∀ {r q : Handset}, r.exchanged s.binding.marshals[m].identity new (Handset.flag false) (Handset.flag true) =
        some q → q.identity = r.identity := fun h => by
      obtain ⟨-, rfl⟩ | ⟨-, -, rfl⟩ | ⟨-, -, rfl⟩ := Handset.exchanged_cases h <;> rfl
    exact unique h k r q hr hq ((origin ea).symm.trans (e.trans (origin eb)))
  · rw [recs, startup on k]
    rfl
  · obtain ⟨k, r, hr, hi, alive⟩ := backed c a ha st
    have untouched : s.binding.marshals[m].identity ≠ some r.identity := fun e => apart c m a ha (e.trans (congrArg some hi))
    by_cases takes : new = some r.identity
    · exact ⟨k, Handset.flag true r, by rw [recs, hr]; exact Handset.exchanged_gain takes, hi, alive⟩
    · exact ⟨k, r, by rw [recs, hr]; exact Handset.exchanged_other takes untouched, hi, alive⟩

end Sys2Proof.Machine
end

section
/-! The commands that leave the identities: what they change is read by no part of the invariant of identities (R19, R20,
R44, R45). -/

namespace Sys2Proof.Machine

-- One after the other, the proofs need no thread each.
set_option Elab.async false

/-- The move from s to t leaves what the invariant of identities reads: the records in use, the holding of each car, the
identity of each marshal entry; and no start-up begins. -/
structure State.LeavesIdentities (s t : State) : Prop where
  records : t.handsets.records = s.handsets.records
  held : ∀ c : CarId, t.binding.bindings[c].held = s.binding.bindings[c].held
  listed : ∀ m : MarshalId, t.binding.marshals[m].identity = s.binding.marshals[m].identity
  starting : t.seq.starting = true → s.seq.starting = true

theorem State.LeavesIdentities.identitiesOk {s t : State} (h : s.LeavesIdentities t) (ok : s.identitiesOk) :
    t.identitiesOk := by
  obtain ⟨cars, entries, apart, unique, mirror, startup, backed⟩ := ok
  unfold State.identitiesOk
  simp only [h.records, h.held, h.listed]
  exact ⟨cars, entries, apart, unique, mirror, fun on => startup (h.starting on), backed⟩

theorem State.LeavesIdentities.refl (s : State) : s.LeavesIdentities s := ⟨rfl, fun _ => rfl, fun _ => rfl, id⟩

theorem State.LeavesIdentities.trans {s t u : State} (h : s.LeavesIdentities t) (g : t.LeavesIdentities u) :
    s.LeavesIdentities u :=
  ⟨g.records.trans h.records, fun c => (g.held c).trans (h.held c), fun m => (g.listed m).trans (h.listed m),
    h.starting ∘ g.starting⟩

theorem State.LeavesIdentities.foldl {α : Type} {f : State → α → State}
    (h : ∀ (u : State) (a : α), u.LeavesIdentities (f u a)) (s : State) (l : List α) : s.LeavesIdentities (l.foldl f s) := by
  induction l generalizing s with
  | nil => exact .refl s
  | cons a as ih => exact (h s a).trans (ih (f s a))

/-- A move that leaves the Handset Table, the bindings and the marshal list. -/
theorem State.LeavesIdentities.of_blocks {s t : State} (handsets : t.handsets = s.handsets := by simp)
    (bindings : t.binding.bindings = s.binding.bindings := by simp)
    (marshals : t.binding.marshals = s.binding.marshals := by simp) (seq : t.seq.starting = s.seq.starting := by simp) :
    s.LeavesIdentities t :=
  ⟨by rw [handsets], fun c => by rw [bindings], fun m => by rw [marshals], fun h => seq ▸ h⟩

theorem State.portsOnly.leavesIdentities {s t : State} (h : s.portsOnly t) : s.LeavesIdentities t := by
  rw [h]
  exact .of_blocks

theorem State.done_leavesIdentities (s : State) (p : PortId) (l : List Byte) : s.LeavesIdentities (s.done p l) :=
  (s.modPort_portsOnly p _).leavesIdentities

theorem State.setWriter_leavesIdentities (s : State) (w : Writer) : s.LeavesIdentities (s.setWriter w) := .of_blocks

theorem State.announceFault_leavesIdentities (s : State) (w : SwitchId) (cause : FaultCause) (left : RunState) :
    s.LeavesIdentities (s.announceFault w cause left) := .of_blocks

theorem State.reserved_leavesIdentities {s : State} {p : PortId} {op : State → State} (h : s.LeavesIdentities (op s)) :
    s.LeavesIdentities (s.reserved p op) := by
  unfold State.reserved
  split
  · exact h
  · exact .of_blocks

theorem State.refuseRange_leavesIdentities (s : State) (p : PortId) (places : List Byte) :
    s.LeavesIdentities (s.refuseRange p places) := by
  unfold State.refuseRange
  split <;> exact .of_blocks

/-! ## Station links, course and layout -/

theorem State.reqTake_leavesIdentities (s : State) (p : PortId) : s.LeavesIdentities (s.reqTake p) := by
  unfold State.reqTake
  split <;> exact .of_blocks

theorem State.reqPortSet_leavesIdentities (s : State) (p : PortId) (attentionLevel shedLevel : Byte) :
    s.LeavesIdentities (s.reqPortSet p attentionLevel shedLevel) := by
  unfold State.reqPortSet
  split
  · exact .of_blocks
  · exact s.refuseRange_leavesIdentities ..

theorem State.reqSelect_leavesIdentities (s : State) (p : PortId) (table index : Byte) :
    s.LeavesIdentities (s.reqSelect p table index) := by
  unfold State.reqSelect
  split <;> exact .of_blocks

theorem State.reqFetch_leavesIdentities (s : State) (p : PortId) : s.LeavesIdentities (s.reqFetch p) := by
  unfold State.reqFetch
  split <;> exact .of_blocks

theorem State.reqStart_leavesIdentities (s : State) (p : PortId) : s.LeavesIdentities (s.reqStart p) :=
  State.reserved_leavesIdentities <| by
    split
    · exact .of_blocks
    · split <;> exact .of_blocks

theorem State.toStop_leavesIdentities (s : State) (cause : CourseCause) : s.LeavesIdentities (s.toStop cause) :=
  .of_blocks (handsets := by simp [State.toStop]) (bindings := by simp [State.toStop])
    (marshals := by simp [State.toStop]) (seq := by simp [State.toStop])

theorem State.toCaution_leavesIdentities (s : State) (cause : CourseCause) : s.LeavesIdentities (s.toCaution cause) :=
  .of_blocks (handsets := by simp [State.toCaution]) (bindings := by simp [State.toCaution])
    (marshals := by simp [State.toCaution]) (seq := by simp [State.toCaution])

theorem State.reqStop_leavesIdentities (s : State) (p : PortId) : s.LeavesIdentities (s.reqStop p) :=
  State.reserved_leavesIdentities <| by
    split
    · exact .of_blocks
    · exact (s.toStop_leavesIdentities _).trans (State.done_leavesIdentities ..)

theorem State.reqCaution_leavesIdentities (s : State) (p : PortId) : s.LeavesIdentities (s.reqCaution p) :=
  State.reserved_leavesIdentities <| by
    split
    case h_3 => exact (s.toCaution_leavesIdentities _).trans (State.done_leavesIdentities ..)
    all_goals exact .of_blocks

theorem State.reqGreen_leavesIdentities (s : State) (p : PortId) : s.LeavesIdentities (s.reqGreen p) :=
  State.reserved_leavesIdentities <| by split <;> exact .of_blocks

theorem State.reqPit_leavesIdentities (s : State) (p : PortId) (opened : Bool) : s.LeavesIdentities (s.reqPit p opened) :=
  State.reserved_leavesIdentities <| by split <;> exact .of_blocks

theorem State.reqZoneLock_leavesIdentities (s : State) (p : PortId) (zone lock : Byte) :
    s.LeavesIdentities (s.reqZoneLock p zone lock) :=
  State.reserved_leavesIdentities <| by
    split
    · split
      · exact s.refuseRange_leavesIdentities ..
      · simp only
        split <;> exact .of_blocks
    · exact s.refuseRange_leavesIdentities ..

theorem State.clearSwitch_leavesIdentities (s : State) (w : SwitchId) : s.LeavesIdentities (s.clearSwitch w) := by
  unfold State.clearSwitch
  split <;> exact .of_blocks

theorem State.reqTrackClear_leavesIdentities (s : State) (p : PortId) : s.LeavesIdentities (s.reqTrackClear p) :=
  State.reserved_leavesIdentities <| by
    split
    · exact .of_blocks
    · have cleared : s.LeavesIdentities s.clearPositions.clearLane := .of_blocks
      have switches := cleared.trans (.foldl State.clearSwitch_leavesIdentities _ (List.finRange 32))
      simp only
      generalize (List.finRange 32).foldl State.clearSwitch s.clearPositions.clearLane = u at switches
      exact switches.trans .of_blocks

theorem State.reqSwitch_leavesIdentities (s : State) (p : PortId) (r : SwitchRequest) (switch : Byte) :
    s.LeavesIdentities (s.reqSwitch p r switch) :=
  State.reserved_leavesIdentities <| by
    split
    · exact .of_blocks
    · split <;> exact .of_blocks

theorem State.reqLayoutRun_leavesIdentities (s : State) (p : PortId) : s.LeavesIdentities (s.reqLayoutRun p) :=
  State.reserved_leavesIdentities <| by
    split
    · exact .of_blocks
    · split <;> exact .of_blocks

theorem State.reqLayoutEdit_leavesIdentities (s : State) (p : PortId) : s.LeavesIdentities (s.reqLayoutEdit p) :=
  State.reserved_leavesIdentities <| by
    split
    · exact .of_blocks
    · split
      · exact .of_blocks
      · split <;> exact .of_blocks

theorem State.reqOpenPairing_leavesIdentities (s : State) (p : PortId) (seconds : Byte) :
    s.LeavesIdentities (s.reqOpenPairing p seconds) :=
  State.reserved_leavesIdentities <| by
    split
    · exact .of_blocks
    · split <;> exact .of_blocks

theorem State.reqClosePairing_leavesIdentities (s : State) (p : PortId) : s.LeavesIdentities (s.reqClosePairing p) :=
  State.reserved_leavesIdentities <| by split <;> exact .of_blocks

theorem State.reqStoreSave_leavesIdentities (s : State) (p : PortId) (row : Byte) :
    s.LeavesIdentities (s.reqStoreSave p row) :=
  State.reserved_leavesIdentities <| by
    split
    · exact .of_blocks
    · split
      · exact .of_blocks
      · split <;> exact .of_blocks

theorem State.applyDone_leavesIdentities (s : State) (p : PortId) (ref : RecordRef) :
    s.LeavesIdentities (s.applyDone p ref) := (s.modPort_portsOnly p _).leavesIdentities

theorem State.applyZone_leavesIdentities (s : State) (p : PortId) (z : ZoneId) (image : List Byte) :
    s.LeavesIdentities (s.applyZone p z image) := by
  unfold State.applyZone
  split
  · exact .of_blocks
  · exact .trans .of_blocks (State.applyDone_leavesIdentities ..)

theorem State.applySwitch_leavesIdentities (s : State) (p : PortId) (w : SwitchId) (image : List Byte) :
    s.LeavesIdentities (s.applySwitch p w image) := by
  unfold State.applySwitch
  split
  · exact .of_blocks
  · exact .trans .of_blocks (State.applyDone_leavesIdentities ..)

theorem State.applySensor_leavesIdentities (s : State) (p : PortId) (n : SensorId) (image : List Byte) :
    s.LeavesIdentities (s.applySensor p n image) := by
  unfold State.applySensor
  split
  · exact .of_blocks
  · exact .trans .of_blocks (State.applyDone_leavesIdentities ..)

theorem State.applySettings_leavesIdentities (s : State) (p : PortId) (image : List Byte) :
    s.LeavesIdentities (s.applySettings p image) := by
  unfold State.applySettings
  split
  · exact .of_blocks
  · exact .trans .of_blocks (State.applyDone_leavesIdentities ..)

/-! ## Crossings and switches -/

theorem State.pairingCrossing_leavesIdentities (s : State) (p : PortId) (n : SensorId) (c : CarId) (stamp : Time) :
    s.LeavesIdentities (s.pairingCrossing p n c stamp) := by
  unfold State.pairingCrossing State.crossingDone
  split <;> exact .of_blocks

theorem State.trackCrossing_leavesIdentities (s : State) (p : PortId) (n : SensorId) (z : ZoneId) (w : Option SwitchId)
    (c : CarId) (stamp : Time) : s.LeavesIdentities (s.trackCrossing p n z w c stamp) := by
  unfold State.trackCrossing State.crossingDone
  split
  · exact .of_blocks
  · split <;> exact .of_blocks

theorem State.reqReportCrossing_leavesIdentities (s : State) (p : PortId) (sensor car age : Byte) :
    s.LeavesIdentities (s.reqReportCrossing p sensor car age) := by
  unfold State.reqReportCrossing
  split
  · exact .of_blocks
  · split
    · exact .of_blocks
    · split
      · exact .of_blocks
      · split
        · exact .of_blocks
        · simp only
          split
          · exact s.pairingCrossing_leavesIdentities ..
          · exact s.trackCrossing_leavesIdentities ..
          · exact s.trackCrossing_leavesIdentities ..

theorem State.takeThrown_leavesIdentities (s : State) (p : PortId) (w : SwitchId) :
    s.LeavesIdentities (s.takeThrown p w) := by
  unfold State.takeThrown
  split <;> exact .of_blocks

theorem State.takeReturned_leavesIdentities (s : State) (p : PortId) (w : SwitchId) :
    s.LeavesIdentities (s.takeReturned p w) := by
  unfold State.takeReturned
  split <;> exact .of_blocks

theorem State.takeJammed_leavesIdentities (s : State) (p : PortId) (w : SwitchId) (position : Position) :
    s.LeavesIdentities (s.takeJammed p w position) := by
  unfold State.takeJammed
  simp only
  refine .trans ?_ ((State.announceFault_leavesIdentities ..).trans (State.done_leavesIdentities ..))
  split <;> exact .of_blocks

theorem State.reqReportSwitch_leavesIdentities (s : State) (p : PortId) (switch kind position : Byte) :
    s.LeavesIdentities (s.reqReportSwitch p switch kind position) := by
  unfold State.reqReportSwitch
  split
  · exact .of_blocks
  · split
    · exact .of_blocks
    · split
      · exact .of_blocks
      · split
        · exact s.takeThrown_leavesIdentities ..
        · split
          · exact s.takeReturned_leavesIdentities ..
          · split
            · cases positionOf position with
              | none => exact .of_blocks
              | some place => exact s.takeJammed_leavesIdentities ..
            · exact .of_blocks

/-! ## Deadlines and expiries -/

theorem execPitExitRecheck_leavesIdentities (w : SwitchId) (s : State) :
    ∃ t : State, execPitExitRecheck w s = .next t ∧ s.LeavesIdentities t := by
  unfold execPitExitRecheck
  split
  · split <;> exact ⟨_, rfl, .of_blocks⟩
  all_goals exact ⟨_, rfl, .refl s⟩

theorem execActuationDeadline_leavesIdentities (w : SwitchId) (s : State) :
    ∃ t : State, execActuationDeadline w s = .next t ∧ s.LeavesIdentities t := by
  unfold execActuationDeadline
  split
  · split <;> exact ⟨_, rfl, .of_blocks⟩
  all_goals exact ⟨_, rfl, .refl s⟩

theorem execHoldDeadline_leavesIdentities (w : SwitchId) (s : State) :
    ∃ t : State, execHoldDeadline w s = .next t ∧ s.LeavesIdentities t := by
  unfold execHoldDeadline
  split
  · split <;> exact ⟨_, rfl, .of_blocks⟩
  all_goals exact ⟨_, rfl, .refl s⟩

theorem execRestoringActuationDeadline_leavesIdentities (w : SwitchId) (s : State) :
    ∃ t : State, execRestoringActuationDeadline w s = .next t ∧ s.LeavesIdentities t := by
  unfold execRestoringActuationDeadline
  split
  · split <;> exact ⟨_, rfl, .of_blocks⟩
  all_goals exact ⟨_, rfl, .refl s⟩

theorem execIntentExpiry_leavesIdentities (c : CarId) (s : State) :
    ∃ t : State, execIntentExpiry c s = .next t ∧ s.LeavesIdentities t := by
  unfold execIntentExpiry
  split <;> exact ⟨_, rfl, .of_blocks⟩

theorem execConflictCapEnd_leavesIdentities (c : CarId) (s : State) :
    ∃ t : State, execConflictCapEnd c s = .next t ∧ s.LeavesIdentities t := by
  unfold execConflictCapEnd
  split <;> exact ⟨_, rfl, .of_blocks⟩

theorem execStall_leavesIdentities (c : CarId) (s : State) :
    ∃ t : State, execStall c s = .next t ∧ s.LeavesIdentities t := by
  unfold execStall
  split
  · split <;> exact ⟨_, rfl, .of_blocks⟩
  · exact ⟨_, rfl, .refl s⟩

theorem execPairingWindowExpiry_leavesIdentities (s : State) :
    ∃ t : State, execPairingWindowExpiry s = .next t ∧ s.LeavesIdentities t := by
  unfold execPairingWindowExpiry
  split <;> exact ⟨_, rfl, .of_blocks⟩

theorem execLampExpiry_leavesIdentities (s : State) :
    ∃ t : State, execLampExpiry s = .next t ∧ s.LeavesIdentities t := by
  unfold execLampExpiry
  split
  · split
    · split <;> exact ⟨_, rfl, .of_blocks⟩
    · exact ⟨_, rfl, .refl s⟩
  · exact ⟨_, rfl, .refl s⟩

/-! ## The Bind Store: a mark is no part of an identity (R41, R144) -/

theorem State.setMark_leavesIdentities (s : State) (r : RowId) (mark : Mark) : s.LeavesIdentities (s.setMark r mark) := by
  unfold State.setMark
  split
  · refine ⟨rfl, fun c => ?_, fun _ => rfl, id⟩
    simp only [modAt_get]
    split <;> rfl
  · refine ⟨rfl, fun _ => rfl, fun m => ?_, id⟩
    simp only [modAt_get]
    split <;> rfl

theorem State.storeDone_leavesIdentities (s : State) (c : Commit) (outcome : StoreOutcome) :
    s.LeavesIdentities (s.storeDone c outcome) := by
  unfold State.storeDone
  split <;> exact .of_blocks

theorem State.completeCommit_leavesIdentities (s : State) (c : Commit) : s.LeavesIdentities (s.completeCommit c) := by
  have written : s.LeavesIdentities (s.setRow c.row (rowOf c.content)) := .of_blocks
  unfold State.completeCommit
  simp only
  refine written.trans (.trans ?_ ((State.setWriter_leavesIdentities ..).trans (State.storeDone_leavesIdentities ..)))
  split
  · exact State.setMark_leavesIdentities ..
  · exact .refl _

theorem State.cutCommit_leavesIdentities (s : State) (c : Commit) : s.LeavesIdentities (s.cutCommit c) := by
  unfold State.cutCommit
  split
  · exact (s.setMark_leavesIdentities ..).trans <|
      (State.setWriter_leavesIdentities ..).trans (State.storeDone_leavesIdentities ..)
  · exact .refl s

theorem State.chooseCommit_leavesIdentities (s : State) : s.LeavesIdentities s.chooseCommit := by
  unfold State.chooseCommit
  cases s.autoChoice with
  | none => exact .refl s
  | some r => exact .of_blocks

theorem execWriterStepEnd_leavesIdentities (s : State) :
    ∃ t : State, execWriterStepEnd s = .next t ∧ s.LeavesIdentities t := by
  unfold execWriterStepEnd
  split
  · split <;> exact ⟨_, rfl, .of_blocks⟩
  all_goals exact ⟨_, rfl, .refl s⟩

theorem execCommitCompletion_leavesIdentities (s : State) :
    ∃ t : State, execCommitCompletion s = .next t ∧ s.LeavesIdentities t := by
  unfold execCommitCompletion
  split
  · split
    · exact ⟨_, rfl, s.completeCommit_leavesIdentities _⟩
    · exact ⟨_, rfl, .refl s⟩
  all_goals exact ⟨_, rfl, .refl s⟩

theorem execStweFall_leavesIdentities (s : State) :
    ∃ t : State, execStweFall s = .next t ∧ s.LeavesIdentities t := by
  have low : s.LeavesIdentities { s with store := { s.store with stwe := false } } := .of_blocks
  unfold execStweFall
  split
  · refine ⟨_, rfl, low.trans ?_⟩
    cases s.store.writer.commit with
    | none => exact .refl _
    | some c => exact State.cutCommit_leavesIdentities _ c
  · exact ⟨_, rfl, .refl s⟩

/-! ## The rail frame -/

theorem execRailFrameStart_leavesIdentities (s : State) :
    ∃ t : State, execRailFrameStart s = .next t ∧ s.LeavesIdentities t := by
  unfold execRailFrameStart
  split <;> exact ⟨_, rfl, .of_blocks⟩

theorem execBroadcastWord_leavesIdentities (s : State) :
    ∃ t : State, execBroadcastWord s = .next t ∧ s.LeavesIdentities t := by
  unfold execBroadcastWord
  split <;> exact ⟨_, rfl, .of_blocks⟩

theorem execCarWord_leavesIdentities (c : CarId) (s : State) :
    ∃ t : State, execCarWord c s = .next t ∧ s.LeavesIdentities t := by
  unfold execCarWord
  split <;> exact ⟨_, rfl, .of_blocks⟩

theorem execQuietWindow_leavesIdentities (s : State) :
    ∃ t : State, execQuietWindow s = .next t ∧ s.LeavesIdentities t := by
  unfold execQuietWindow
  split <;> exact ⟨_, rfl, .of_blocks⟩

theorem State.bitPeriod_leavesIdentities (s : State) : s.LeavesIdentities s.bitPeriod := by
  obtain ⟨p, -, -, -, -, e⟩ | ⟨-, e⟩ := s.bitPeriod_cases <;> rw [e]
  · exact .of_blocks
  · exact .refl s

/-- The start-up that ends leaves the identities; that no start-up holds on asks less of the records. -/
theorem execRestoreEnd_leavesIdentities (s : State) :
    ∃ t : State, execRestoreEnd s = .next t ∧ s.LeavesIdentities t := by
  unfold execRestoreEnd
  split
  · have begun : s.LeavesIdentities (s.started.beginFrame 0 (addMs s.seq.nextFrame 5)) :=
      ⟨rfl, fun _ => rfl, fun _ => rfl, fun on => by cases on⟩
    exact ⟨_, rfl, begun.trans (State.chooseCommit_leavesIdentities _)⟩
  · exact ⟨_, rfl, .refl s⟩

end Sys2Proof.Machine
end

section
/-! Every step keeps the identities unique and mirrored, with a record in use for every BOUND and SUSPENDED car (R19, R20,
R44, R45). -/

namespace Sys2Proof.Machine

-- One after the other, the proofs need no thread each.
set_option Elab.async false

/-! ## One record written -/

theorem State.putRecord_records (s : State) (h k : HandsetId) (r : Option Handset) :
    (s.putRecord h r).handsets.records[k] = if k = h then r else s.handsets.records[k] :=
  modAt_get s.handsets.records h k _

/-- A record in use rewritten is the new record put in its place. -/
theorem State.modHandset_eq {s : State} {h : HandsetId} {r : Handset} (hr : s.handsets.records[h] = some r)
    (f : Handset → Handset) : s.modHandset h f = s.putRecord h (some (f r)) := by
  unfold State.modHandset State.putRecord
  rw [modAt_congr s.handsets.records h (f := Option.map f) (g := fun _ => some (f r))]
  rw [hr]
  rfl

/-- The bound car and the marshal flag of a record as the bindings and the marshal list give them (R20). -/
def State.mirrors (s : State) (r : Handset) : Prop :=
  (∀ c : CarId, r.boundCar = some c ↔ ∃ a : Held, s.binding.bindings[c].held = some a ∧ a.identity = r.identity) ∧
    (r.marshal = true ↔ ∃ m : MarshalId, s.binding.marshals[m].identity = some r.identity)

/-- A record LOST has no car BOUND to it (R44). -/
def State.lostUnbound (s : State) (r : Handset) : Prop :=
  r.link = .lost → ∀ (c : CarId) (a : Held), s.binding.bindings[c].held = some a → a.identity = r.identity →
    a.state ≠ .bound

/-- A record written at a place that is free or holds the same identity, and mirrored, keeps the identities. -/
theorem State.putRecord_identitiesOk {s : State} (ok : s.identitiesOk) {h : HandsetId} {r : Handset}
    (running : s.seq.starting = false)
    (alone : ∀ (k : HandsetId) (q : Handset), s.handsets.records[k] = some q → (q.identity = r.identity ↔ k = h))
    (mirrored : s.mirrors r) (lost : s.lostUnbound r) : (s.putRecord h (some r)).identitiesOk := by
  obtain ⟨cars, entries, apart, unique, mirror, -, backed⟩ := ok
  unfold State.identitiesOk
  simp only [State.putRecord_fields, modAt_get]
  refine ⟨cars, entries, apart, fun x y a b ha hb e => ?_, fun k q hq => ?_, fun on => ?_, fun c a ha st => ?_⟩
  · split at ha
    · next atX =>
      cases ha
      split at hb
      · next atY => exact atX.trans atY.symm
      · exact atX.trans ((alone y b hb).1 e.symm).symm
    · split at hb
      · next atY =>
        cases hb
        exact ((alone x a ha).1 e).trans atY.symm
      · exact unique x y a b ha hb e
  · split at hq
    · cases hq
      exact mirrored
    · exact mirror k q hq
  · exact absurd (on.symm.trans running) (by decide)
  · obtain ⟨k, q, hq, hi, alive⟩ := backed c a ha st
    by_cases same : k = h
    · have holds := (alone k q hq).2 same
      exact ⟨h, r, if_pos rfl, holds.symm.trans hi,
        fun bound dead => lost dead c a ha (hi.symm.trans holds) bound⟩
    · exact ⟨k, q, (if_neg same).trans hq, hi, alive⟩

section
variable {s : State} (ok : s.identitiesOk) {h : HandsetId} {r : Handset} (hr : s.handsets.records[h] = some r)
include ok hr

theorem State.identitiesOk.running : s.seq.starting = false := by
  obtain ⟨-, -, -, -, -, startup, -⟩ := ok
  cases on : s.seq.starting with
  | false => rfl
  | true => exact absurd (hr.symm.trans (startup on h)) (Option.some_ne_none r)

theorem State.identitiesOk.mirrors : s.mirrors r := by
  obtain ⟨-, -, -, -, mirror, -⟩ := ok
  exact mirror h r hr

theorem State.identitiesOk.alone (k : HandsetId) (q : Handset) (hq : s.handsets.records[k] = some q) :
    q.identity = r.identity ↔ k = h := by
  refine ⟨ok.recordsUnique k h q r hq hr, fun same => ?_⟩
  subst same
  cases Option.some.inj (hq.symm.trans hr)
  rfl

theorem State.identitiesOk.lostUnbound : s.lostUnbound r := fun lost c a ha hi bound => by
  have alone := ok.alone hr
  obtain ⟨-, -, -, -, -, -, backed⟩ := ok
  obtain ⟨k, q, hq, holds, alive⟩ := backed c a ha (.inl bound)
  have same := (alone k q hq).1 (holds.trans hi)
  subst same
  cases Option.some.inj (hq.symm.trans hr)
  exact alive bound lost

/-- A record rewritten that keeps its identity, bound car and marshal flag keeps the identities, if it is LOST only with
no car BOUND to it. -/
theorem State.rewriteRecord_identitiesOk {q : Handset} (identity : q.identity = r.identity := by rfl)
    (boundCar : q.boundCar = r.boundCar := by rfl) (marshal : q.marshal = r.marshal := by rfl) (lost : s.lostUnbound q) :
    (s.putRecord h (some q)).identitiesOk := by
  refine State.putRecord_identitiesOk ok (ok.running hr) ?_ ?_ lost
  · rw [identity]
    exact ok.alone hr
  · unfold State.mirrors
    rw [identity, boundCar, marshal]
    exact ok.mirrors hr

/-- A record that moves to a state other than LOST, or to none, keeps the identities. -/
theorem State.rewriteRecord_alive_identitiesOk {q : Handset} (identity : q.identity = r.identity := by rfl)
    (boundCar : q.boundCar = r.boundCar := by rfl) (marshal : q.marshal = r.marshal := by rfl)
    (alive : q.link = .lost → r.link = .lost) : (s.putRecord h (some q)).identitiesOk := by
  refine State.rewriteRecord_identitiesOk ok hr identity boundCar marshal fun dead => ?_
  rw [identity]
  exact ok.lostUnbound hr (alive dead)

/-- The record of a car's identity backs the car's holding, BOUND while it is not LOST and SUSPENDED at any time. -/
theorem State.backs_of_boundCar {c : CarId} (bound : r.boundCar = some c) {a : Held}
    (ha : s.binding.bindings[c].held = some a) {st : HeldState} (alive : st = .bound → r.link ≠ .lost) :
    s.backs { a with state := st } := fun _ => by
  obtain ⟨cars, -⟩ := ok.mirrors hr
  obtain ⟨b, hb, hi⟩ := (cars c).1 bound
  cases Option.some.inj (ha.symm.trans hb)
  exact ⟨h, r, hr, hi.symm, alive⟩

end

/-- A record that is neither a car's nor a marshal's may be freed. -/
theorem State.freeIfForsaken_identitiesOk {s : State} (ok : s.identitiesOk) (h : HandsetId) :
    (s.freeIfForsaken h).identitiesOk := by
  have recs := s.freeIfForsaken_records h
  obtain ⟨r, hr, -, unbound, -⟩ | ⟨-, e⟩ := s.freeIfForsaken_cases h
  · have fewer : ∀ (k : HandsetId) (q : Handset), (s.freeIfForsaken h).handsets.records[k] = some q →
        s.handsets.records[k] = some q := fun k q hq => by
      rw [recs] at hq
      split at hq
      · obtain ⟨p, hp, hq⟩ := Option.bind_eq_some_iff.1 hq
        rw [Handset.kept_eq_some hq]
        exact hp
      · exact hq
    obtain ⟨cars, entries, apart, unique, mirror, startup, backed⟩ := ok
    unfold State.identitiesOk
    simp only [State.freeIfForsaken_fields]
    refine ⟨cars, entries, apart, fun x y a b ha hb => unique x y a b (fewer x a ha) (fewer y b hb),
      fun k q hq => mirror k q (fewer k q hq), fun on k => ?_, fun c a ha st => ?_⟩
    · rw [recs, startup on k]
      exact ite_self _
    · obtain ⟨k, q, hq, hi, alive⟩ := backed c a ha st
      have other : k ≠ h := fun same => by
        subst same
        have bound := ((mirror k q hq).1 c).2 ⟨a, ha, hi.symm⟩
        cases Option.some.inj (hr.symm.trans hq)
        exact Option.some_ne_none c (bound.symm.trans unbound)
      exact ⟨k, q, by rw [recs, if_neg other]; exact hq, hi, alive⟩
  · rw [e]
    exact ok

/-! ## A holding that changes its state (R43, R44) -/

/-- What a car holds is open to it. -/
theorem State.identitiesOk.openTo {s : State} (ok : s.identitiesOk) {c : CarId} {a : Held}
    (ha : s.binding.bindings[c].held = some a) : s.openTo c a.identity := by
  obtain ⟨cars, -, apart, -⟩ := ok
  exact ⟨fun k b hb e => cars k c b a hb ha e, fun m => apart c m a ha⟩

theorem State.moveBinding_identitiesOk {s : State} (ok : s.identitiesOk) {c : CarId} {source : HeldState → Bool}
    {target : HeldState} (back : ∀ a : Held, s.binding.bindings[c].held = some a → s.backs { a with state := target }) :
    (s.moveBinding c source target).identitiesOk := by
  obtain ⟨a, ha, -, e⟩ | ⟨-, e⟩ := s.moveBinding_cases c source target
  · have rebound : (s.changeBinding c fun b => { b with held := some { a with state := target } }) =
        s.rebind c (some { a with state := target }) id := by
      unfold State.rebind
      rw [ha]
      exact congrArg (fun u : State => u.changeBinding c fun b => { b with held := some { a with state := target } })
        (s.carryIdentity_same c (some a.identity)).symm
    rw [e, rebound]
    have free := ok.openTo ha
    refine State.rebind_identitiesOk ok id ?_ ?_
    · rintro _ ⟨⟩
      exact free
    · rintro _ ⟨⟩
      exact back a ha
  · rw [e]
    exact ok

theorem State.announceLink_portsOnly (s : State) (r : Handset) : s.portsOnly (s.announceLink r) := by
  unfold State.announceLink
  cases s.holderOf r with
  | none => exact s.portsOnly_refl
  | some holder => exact s.offerWhere_portsOnly ..

/-- A record in use that is not LOST may be handed on as LIVE. -/
theorem State.handLive_identitiesOk {s : State} (ok : s.identitiesOk) {h : HandsetId} {r : Handset}
    (hr : s.handsets.records[h] = some r) (alive : r.link ≠ .lost) : (s.handLive r).identitiesOk := by
  unfold State.handLive
  refine (State.announceLink_portsOnly _ r).leavesIdentities.identitiesOk ?_
  cases bound : r.boundCar with
  | none => exact ok
  | some c =>
    rw [Option.elim_some]
    exact State.moveBinding_identitiesOk ok fun a ha => State.backs_of_boundCar ok hr bound ha fun _ => alive

/-- A change of a car's state does not read the Handset Table. -/
theorem State.moveBinding_putRecord (s : State) (c : CarId) (source : HeldState → Bool) (target : HeldState)
    (h : HandsetId) (r : Option Handset) :
    (s.putRecord h r).moveBinding c source target = (s.moveBinding c source target).putRecord h r := by
  unfold State.moveBinding
  simp only [State.putRecord_fields]
  cases s.binding.bindings[c].held with
  | none => rfl
  | some a =>
    by_cases moves : source a.state = true
    · simp only [if_pos moves]
      rfl
    · simp only [if_neg moves]

/-- A car whose handset is LOST is no longer BOUND. -/
theorem State.moveBinding_leaves_bound {s : State} {c : CarId} {a : Held}
    (ha : (s.moveBinding c (· == .bound) .suspended).binding.bindings[c].held = some a) : a.state ≠ .bound := by
  obtain ⟨b, -, -, e⟩ | ⟨unbound, e⟩ := s.moveBinding_cases c (· == .bound) .suspended
  · rw [e, State.changeBinding_bindings, if_pos rfl] at ha
    cases ha
    exact HeldState.noConfusion
  · rw [e] at ha
    exact fun bound => Bool.noConfusion ((unbound a ha).symm.trans (beq_iff_eq.2 bound))

/-- A record that goes LOST, with its BOUND car SUSPENDED, keeps the identities: the car is moved before the record, as
neither reads the other. -/
theorem State.lose_identitiesOk {s : State} (ok : s.identitiesOk) {h : HandsetId} {r q : Handset}
    (hr : s.handsets.records[h] = some r) (identity : q.identity = r.identity) (boundCar : q.boundCar = r.boundCar)
    (marshal : q.marshal = r.marshal) : ((s.putRecord h (some q)).handLost q).identitiesOk := by
  unfold State.handLost
  refine (State.announceLink_portsOnly _ q).leavesIdentities.identitiesOk ?_
  rw [boundCar]
  obtain ⟨cars, -⟩ := ok.mirrors hr
  cases bound : r.boundCar with
  | none =>
    refine State.rewriteRecord_identitiesOk ok hr identity boundCar marshal fun _ c a ha hi => ?_
    have none := (cars c).2 ⟨a, ha, hi.trans identity⟩
    exact absurd (none.symm.trans bound) (Option.some_ne_none c)
  | some c =>
    rw [Option.elim_some, State.moveBinding_putRecord]
    have moved : (s.moveBinding c (· == .bound) .suspended).identitiesOk :=
      State.moveBinding_identitiesOk ok fun a ha => State.backs_of_boundCar ok hr bound ha (fun e => by cases e)
    have kept : (s.moveBinding c (· == .bound) .suspended).handsets.records[h] = some r := by
      obtain ⟨_, -, -, e⟩ | ⟨-, e⟩ := s.moveBinding_cases c (· == .bound) .suspended <;> rw [e]
      · simpa only [State.changeBinding_fields] using hr
      · exact hr
    refine State.rewriteRecord_identitiesOk moved kept identity boundCar marshal fun _ x a ha hi => ?_
    have holds := ((moved.mirrors kept).1 x).2 ⟨a, ha, hi.trans identity⟩
    cases Option.some.inj (bound.symm.trans holds)
    exact State.moveBinding_leaves_bound ha

/-! ## PAIR edges, applies and RELEASE -/

/-- The state that a car's new identity gives it is BOUND exactly with a LIVE handset (R54, R58). -/
theorem State.heldStateFor_cases (s : State) (i : Ident) :
    (s.heldStateFor i = .bound ∧ ∃ (h : HandsetId) (r : Handset), s.handsets.records[h] = some r ∧ r.identity = i ∧
      r.link = .live) ∨
    (s.heldStateFor i = .reserved ∧ ∀ h : HandsetId, s.handsetOf i = some h →
      ∀ r : Handset, s.handsets.records[h] = some r → r.link ≠ .live) := by
  unfold State.heldStateFor
  cases found : s.handsetOf i with
  | none => exact .inr ⟨rfl, fun _ e => by cases e⟩
  | some h =>
    obtain ⟨r, hr, hi⟩ := State.handsetOf_spec found
    simp only [hr, Option.any_some, beq_iff_eq]
    by_cases live : r.link = .live
    · exact .inl ⟨if_pos live, h, r, hr, hi, live⟩
    · refine .inr ⟨if_neg live, ?_⟩
      rintro _ ⟨⟩ q hq
      cases Option.some.inj (hr.symm.trans hq)
      exact live

theorem State.heldStateFor_backs (s : State) (i : Ident) (source : Source) :
    s.backs (Held.mk i source (s.heldStateFor i)) := fun st => by
  change s.heldStateFor i = .bound ∨ s.heldStateFor i = .suspended at st
  obtain ⟨-, h, r, hr, hi, live⟩ | ⟨reserved, -⟩ := s.heldStateFor_cases i
  · exact ⟨h, r, hr, hi, fun _ dead => LinkState.noConfusion (live.symm.trans dead)⟩
  · rw [reserved] at st
    cases st with
    | inl e => cases e
    | inr e => cases e

theorem State.modOffers_leavesIdentities (s : State) (f : List Offer → List Offer) : s.LeavesIdentities (s.modOffers f) :=
  .of_blocks

/-- A car that gives up its identity keeps the identities. -/
theorem State.vacate_identitiesOk {s : State} (ok : s.identitiesOk) (c : CarId) : (s.rebind c none id).identitiesOk :=
  State.rebind_identitiesOk ok id (fun _ e => by cases e) (fun _ e => by cases e)

/-- The car that held the identity of a PAIR edge is VACANT before the offered car takes it (R54). -/
def State.vacated (s : State) (i : Ident) : State := (s.carOf i).elim s fun old => s.rebind old none id

theorem State.vacated_identitiesOk {s : State} (ok : s.identitiesOk) (i : Ident) : (s.vacated i).identitiesOk := by
  unfold State.vacated
  cases s.carOf i with
  | none => exact ok
  | some old => exact State.vacate_identitiesOk ok old

/-- After that no car holds it. -/
theorem State.vacated_held {s : State} (ok : s.identitiesOk) (i : Ident) (c : CarId) :
    (s.vacated i).binding.bindings[c].held = (s.binding.bindings[c].held).filter (·.identity ≠ i) := by
  unfold State.vacated
  cases found : s.carOf i with
  | none =>
    have free := State.carOf_eq_none.1 found c
    cases ha : s.binding.bindings[c].held with
    | none => exact ha
    | some a =>
      rw [Option.filter_some, if_pos (decide_eq_true (free a ha))]
      exact ha
  | some old =>
    obtain ⟨b, hb, rfl⟩ := State.carOf_spec found
    obtain ⟨cars, -⟩ := ok
    rw [Option.elim_some, State.rebind_held]
    split
    · next same =>
      subst same
      rw [hb, Option.filter_some, if_neg (by simp)]
    · next other =>
      cases ha : s.binding.bindings[c].held with
      | none => rfl
      | some a =>
        have differ : a.identity ≠ b.identity := fun e => other (cars c old a b ha hb e)
        rw [Option.filter_some, if_pos (decide_eq_true differ)]

theorem State.vacated_marshals (s : State) (i : Ident) : (s.vacated i).binding.marshals = s.binding.marshals := by
  unfold State.vacated
  cases s.carOf i with
  | none => rfl
  | some old => simp only [Option.elim_some, State.rebind_fields]

theorem State.vacated_openTo {s : State} (ok : s.identitiesOk) {i : Ident}
    (unlisted : ∀ m : MarshalId, s.binding.marshals[m].identity ≠ some i) (c : CarId) : (s.vacated i).openTo c i := by
  refine ⟨fun k a ha hi => ?_, fun m => ?_⟩
  · rw [State.vacated_held ok, Option.filter_eq_some_iff] at ha
    exact absurd hi (by simpa using ha.2)
  · rw [State.vacated_marshals]
    exact unlisted m

theorem State.pairWith_identitiesOk {s : State} (ok : s.identitiesOk) {i : Ident}
    (unlisted : ∀ m : MarshalId, s.binding.marshals[m].identity ≠ some i) (o : Offer) :
    (s.pairWith i o).identitiesOk := by
  refine (State.modOffers_leavesIdentities ..).identitiesOk ?_
  refine State.rebind_identitiesOk (State.vacated_identitiesOk ok i) id ?_ ?_
  · rintro _ ⟨⟩
    exact State.vacated_openTo ok unlisted o.car
  · rintro _ ⟨⟩
    exact State.heldStateFor_backs _ i .paired

theorem State.announcePair_portsOnly (s : State) (station : PortId) (i : Ident) (result : PairResult) (c : Option CarId) :
    s.portsOnly (s.announcePair station i result c) := s.offerWhere_portsOnly ..

theorem State.pairEdge_identitiesOk {s : State} (ok : s.identitiesOk) {i : Ident} {marshal : Bool}
    (unlisted : marshal = false → ∀ m : MarshalId, s.binding.marshals[m].identity ≠ some i) (station : PortId)
    (strength : BitVec 4) : (s.pairEdge i marshal station strength).identitiesOk := by
  have told : ∀ {u : State} (result : PairResult) (c : Option CarId), u.identitiesOk →
      (u.announcePair station i result c).identitiesOk :=
    fun result c => (State.announcePair_portsOnly _ station i result c).leavesIdentities.identitiesOk
  unfold State.pairEdge
  split
  · exact told _ _ ok
  · split
    · exact ok
    · next player =>
      split
      · exact told _ _ ok
      · split
        · exact told _ _ ok
        · next o _ =>
          split
          · exact told _ _ ((s.modOffers_leavesIdentities _).identitiesOk ok)
          · exact told _ _ (State.pairWith_identitiesOk ok (unlisted (Bool.eq_false_of_not_eq_true player)) o)

/-- What a manual apply leaves in a record is backed: an identity kept keeps its state. -/
theorem State.manualHeld_backs {s : State} (ok : s.identitiesOk) {c : CarId} {identity : Option Ident} {a : Held}
    (ha : s.manualHeld c identity = some a) : s.backs a := by
  obtain ⟨-, -, -, -, -, -, backed⟩ := ok
  unfold State.manualHeld at ha
  obtain ⟨i, -, rfl⟩ := Option.map_eq_some_iff.1 ha
  split
  · next b hb =>
    split
    · exact backed c b hb
    · exact s.heldStateFor_backs i .manual
  · exact s.heldStateFor_backs i .manual

theorem State.manualHeld_identity (s : State) (c : CarId) (identity : Option Ident) :
    (s.manualHeld c identity).map (·.identity) = identity := by
  unfold State.manualHeld
  cases identity with
  | none => rfl
  | some i =>
    simp only [Option.map_some]
    split
    · split
      · next same => exact congrArg some same
      · rfl
    · rfl

/-- An identity that no other car and no marshal entry holds is open to the car. -/
theorem State.openTo_of_tests {s : State} {c : CarId} {i : Ident} (other : s.heldByOther c i = false)
    (listed : s.marshalOf i = none) : s.openTo c i := by
  refine ⟨fun k a ha hi => by_contra fun differ => ?_, State.marshalOf_eq_none.1 listed⟩
  exact Bool.noConfusion (other.symm.trans (State.heldByOther_iff.2 ⟨k, a, differ, ha, hi⟩))

theorem State.applyBinding_identitiesOk {s : State} (ok : s.identitiesOk) (p : PortId) (c : CarId) (image : List Byte) :
    (s.applyBinding p c image).identitiesOk := by
  have refused : ∀ r : Reason, (s.refuse p r).identitiesOk := fun r =>
    (s.modPort_portsOnly p _).leavesIdentities.identitiesOk ok
  unfold State.applyBinding
  split
  · exact refused _
  · next x _ =>
    split
    · exact refused _
    · next other =>
      split
      · exact refused _
      · next listed =>
        refine (State.applyDone_leavesIdentities ..).identitiesOk ?_
        refine State.rebind_identitiesOk ok _ (fun a ha => ?_) fun a ha => State.manualHeld_backs ok ha
        have holds : x.identity = some a.identity := by
          rw [← s.manualHeld_identity c x.identity, ha]
          rfl
        rw [holds] at other listed
        exact State.openTo_of_tests (by simpa using other) (by simpa using listed)

theorem State.applyMarshal_identitiesOk {s : State} (ok : s.identitiesOk) (p : PortId) (m : MarshalId)
    (image : List Byte) : (s.applyMarshal p m image).identitiesOk := by
  unfold State.applyMarshal
  simp only
  split
  · exact (s.modPort_portsOnly p _).leavesIdentities.identitiesOk ok
  · next used =>
    have relisted : (s.relist m (identOf (wordAt image 0))).identitiesOk := by
      refine State.relist_identitiesOk ok fun i hi => ?_
      rw [hi] at used
      simp only [Option.any_some, Bool.or_eq_true, not_or, Bool.not_eq_true, Option.isSome_eq_false_iff,
        Option.isNone_iff_eq_none] at used
      obtain ⟨car, elsewhere⟩ := used
      refine ⟨State.carOf_eq_none.1 car, fun n hn => by_contra fun differ => ?_⟩
      exact Bool.noConfusion (elsewhere.symm.trans (State.listedElsewhere_iff.2 ⟨n, differ, hn⟩))
    refine (State.applyDone_leavesIdentities ..).identitiesOk
      ((State.offerWhere_portsOnly ..).leavesIdentities.identitiesOk ?_)
    simpa only [State.relist, State.putMarshal, State.carryMarshal_fields, modAt] using relisted

theorem State.reqRelease_identitiesOk {s : State} (ok : s.identitiesOk) (p : PortId) (car : Byte) :
    (s.reqRelease p car).identitiesOk := by
  have replied : ∀ {u : State} (r : Reply), u.identitiesOk → (u.reply p r).identitiesOk := fun r =>
    (State.modPort_portsOnly _ p _).leavesIdentities.identitiesOk
  unfold State.reqRelease State.reserved
  split
  · split
    · exact replied _ ok
    · next c _ =>
      refine replied _ ?_
      split
      · exact State.vacate_identitiesOk ok c
      · exact ok
  · exact replied _ ok

end Sys2Proof.Machine
end

section
/-! Reports, expiries, the start-up and every other command keep the identities (R19 to R36, R44, R148, R149). -/

namespace Sys2Proof.Machine

-- One after the other, the proofs need no thread each.
set_option Elab.async false

/-! ## Handset reports (R22 to R36) -/

theorem State.laneEdge_leavesIdentities (s : State) (i : Ident) (code : LaneCode) :
    s.LeavesIdentities (s.laneEdge i code) := by
  unfold State.laneEdge
  split
  · split <;> exact .of_blocks
  · exact .refl s

theorem State.marshalEdge_leavesIdentities (s : State) (i : Ident) (live : Bool) (code : LaneCode) (station : PortId) :
    s.LeavesIdentities (s.marshalEdge i live code station) := by
  have told : ∀ (u : State) (body : NoticeBody), u.LeavesIdentities (u.offerWithRaceControl station body) :=
    fun u body => (u.offerWhere_portsOnly _ body).leavesIdentities
  unfold State.marshalEdge
  simp only
  split
  · exact told s _
  · split
    case h_1 => exact (s.toCaution_leavesIdentities _).trans (told _ _)
    case h_6 | h_7 | h_8 => exact (s.toStop_leavesIdentities _).trans (told _ _)
    all_goals exact told s _

theorem State.batteryStep_leavesIdentities (s : State) (r : Handset) (wasLow : Bool) :
    s.LeavesIdentities (s.batteryStep r wasLow) := by
  unfold State.batteryStep
  split
  · exact .refl s
  · exact .of_blocks

section
variable {s : State} (ok : s.identitiesOk) {h : HandsetId} {r : Handset} (hr : s.handsets.records[h] = some r)
include ok hr

/-- A code edge of a record in use: only a handset that is no marshal's may pair. -/
theorem State.handEdge_identitiesOk (station : PortId) (strength : BitVec 4) :
    (s.handEdge r station strength).identitiesOk := by
  obtain ⟨-, listed⟩ := ok.mirrors hr
  unfold State.handEdge
  split
  · refine State.pairEdge_identitiesOk ok (fun player m hm => ?_) station strength
    exact Bool.noConfusion (player.symm.trans (listed.2 ⟨m, hm⟩))
  · split
    · split
      · exact (s.marshalEdge_leavesIdentities ..).identitiesOk ok
      · exact (s.laneEdge_leavesIdentities ..).identitiesOk ok
    · exact ok

/-- A record that moves to a link state other than LOST keeps the identities, a move into LIVE with its car. -/
theorem State.moveLink_identitiesOk {link : LinkState} (alive : link ≠ .lost) : (s.moveLink h r link).identitiesOk := by
  unfold State.moveLink
  split
  · exact ok
  · simp only
    rw [State.modHandset_eq hr]
    have moved : (s.putRecord h (some { r with link := link, stateStamp := s.now })).identitiesOk :=
      State.rewriteRecord_alive_identitiesOk ok hr (alive := fun dead => absurd dead alive)
    split
    · exact State.handLive_identitiesOk moved ((State.putRecord_records ..).trans (if_pos rfl)) alive
    · exact moved

theorem State.acceptReport_identitiesOk (p : PortId) (rep : Report) {link : LinkState} (alive : link ≠ .lost) :
    (s.acceptReport p h r rep link).identitiesOk := by
  have taken : (s.putRecord h (some (r.takeReport rep p s.now))).identitiesOk :=
    State.rewriteRecord_alive_identitiesOk ok hr (alive := id)
  have moved := State.moveLink_identitiesOk taken ((State.putRecord_records ..).trans (if_pos rfl)) alive
  unfold State.acceptReport
  simp only
  rw [State.modHandset_eq hr]
  refine (State.done_leavesIdentities ..).identitiesOk ?_
  have told := (State.batteryStep_leavesIdentities _ (r.takeReport rep p s.now) r.batteryLow).identitiesOk moved
  revert told
  generalize State.batteryStep _ _ _ = u
  intro told
  unfold State.validate
  split
  · next q hq =>
    simp only
    rw [State.modHandset_eq hq]
    have coded : ∀ held : BitVec 4,
        (u.putRecord h (some { q with heldCode := held, candidateCode := rep.code })).identitiesOk := fun held =>
      State.rewriteRecord_alive_identitiesOk told hq (alive := id)
    split
    · exact State.handEdge_identitiesOk (coded _) ((State.putRecord_records ..).trans (if_pos rfl)) p rep.strength
    · exact coded _
  · exact told

theorem State.knownReport_identitiesOk (p : PortId) (rep : Report) : (s.knownReport p h r rep).identitiesOk := by
  have counted : ∀ f : Handset → Handset, (f r).identity = r.identity → (f r).boundCar = r.boundCar →
      (f r).marshal = r.marshal → (f r).link = r.link → (s.modHandset h f).identitiesOk := fun f hi hb hm hl => by
    rw [State.modHandset_eq hr]
    exact State.rewriteRecord_alive_identitiesOk ok hr hi hb hm fun dead => hl.symm.trans dead
  have replied : ∀ {u : State} (outcome : Byte), u.identitiesOk → (u.reportDone p outcome).identitiesOk :=
    fun outcome => (State.done_leavesIdentities ..).identitiesOk
  unfold State.knownReport
  simp only
  split
  case h_1 | h_2 => exact State.acceptReport_identitiesOk ok hr p rep LinkState.noConfusion
  case h_3 acquiring | h_4 live =>
    split
    · exact replied 1 (counted _ rfl rfl rfl rfl)
    · split
      · exact replied 2 (counted _ rfl rfl rfl rfl)
      · refine State.acceptReport_identitiesOk ok hr p rep fun dead => ?_
        split at dead <;> simp_all

end

/-- The record made at allocation mirrors the bindings and the marshal list (R20, R22). -/
theorem State.freshRecord_mirrors {s : State} (ok : s.identitiesOk) (i : Ident) (p : PortId) :
    s.mirrors (s.freshRecord i p) := by
  refine ⟨fun c => ⟨State.carOf_spec, fun ⟨a, ha, hi⟩ => ?_⟩, ?_⟩
  · have found := State.carOf_of_unique ok ha
    rw [hi] at found
    exact found
  · change (s.marshalOf i).isSome = true ↔ ∃ m : MarshalId, s.binding.marshals[m].identity = some i
    cases found : s.marshalOf i with
    | none => exact iff_of_false (fun e => by cases e) fun ⟨m, hm⟩ => State.marshalOf_eq_none.1 found m hm
    | some m => exact iff_of_true rfl ⟨m, State.marshalOf_spec found⟩

theorem State.firstReport_identitiesOk {s : State} (ok : s.identitiesOk) (running : s.seq.starting = false) (p : PortId)
    {rep : Report} (unknown : s.handsetOf rep.identity = none) : (s.firstReport p rep).identitiesOk := by
  unfold State.firstReport
  split
  · next h free =>
    have place : s.handsets.records[h] = none := Option.isNone_iff_eq_none.1 (firstIdx_eq_some.1 free).1
    have made : (s.putRecord h (some (s.freshRecord rep.identity p))).identitiesOk := by
      refine State.putRecord_identitiesOk ok running (fun k q hq => iff_of_false ?_ ?_) (s.freshRecord_mirrors ok ..)
        fun lost => by cases lost
      · exact State.handsetOf_eq_none.1 unknown k q hq
      · rintro rfl
        exact Option.some_ne_none q (hq.symm.trans place)
    exact State.acceptReport_identitiesOk made ((State.putRecord_records ..).trans (if_pos rfl)) p rep
      LinkState.noConfusion
  · refine (State.done_leavesIdentities ..).identitiesOk ?_
    split
    · exact State.LeavesIdentities.identitiesOk ⟨rfl, fun _ => rfl, fun _ => rfl, id⟩ ok
    · exact ok

theorem State.reqReportHandset_identitiesOk {s : State} (ok : s.identitiesOk) (running : s.seq.starting = false)
    (p : PortId) (identity : Ident) (count throttle code battery strength : Byte) :
    (s.reqReportHandset p identity count throttle code battery strength).identitiesOk := by
  unfold State.reqReportHandset State.filterReport
  simp only
  split
  · split
    · next h _ =>
      cases hr : s.handsets.records[h] with
      | none => exact ok
      | some r => exact State.knownReport_identitiesOk ok hr p _
    · next unknown => exact State.firstReport_identitiesOk ok running p unknown
  · exact (s.refuseRange_leavesIdentities ..).identitiesOk ok

/-! ## The expiries of a record (R29 to R33) -/

theorem execStaleExpiry_identitiesOk {s : State} (ok : s.identitiesOk) (h : HandsetId) :
    ∃ t : State, execStaleExpiry h s = .next t ∧ t.identitiesOk := by
  unfold execStaleExpiry
  split
  · next r hr =>
    simp only
    split
    · refine ⟨_, rfl, (State.announceLink_portsOnly ..).leavesIdentities.identitiesOk ?_⟩
      rw [State.modHandset_eq hr]
      exact State.rewriteRecord_alive_identitiesOk ok hr (alive := fun dead => by cases dead)
    · exact ⟨_, rfl, ok⟩
  · exact ⟨_, rfl, ok⟩

theorem execHandsetLostExpiry_identitiesOk {s : State} (ok : s.identitiesOk) (h : HandsetId) :
    ∃ t : State, execHandsetLostExpiry h s = .next t ∧ t.identitiesOk := by
  unfold execHandsetLostExpiry
  split
  · next r hr =>
    simp only
    split
    · refine ⟨_, rfl, State.freeIfForsaken_identitiesOk ?_ h⟩
      rw [State.modHandset_eq hr]
      exact State.lose_identitiesOk ok hr rfl rfl rfl
    · exact ⟨_, rfl, ok⟩
  · exact ⟨_, rfl, ok⟩

/-! ## Requests -/

theorem State.applyRecord_identitiesOk {s : State} (ok : s.identitiesOk) (p : PortId) (ref : RecordRef)
    (image : List Byte) : (s.applyRecord p ref image).identitiesOk := by
  cases ref with
  | zone z => exact (s.applyZone_leavesIdentities ..).identitiesOk ok
  | switch w => exact (s.applySwitch_leavesIdentities ..).identitiesOk ok
  | sensor n => exact (s.applySensor_leavesIdentities ..).identitiesOk ok
  | binding c => exact State.applyBinding_identitiesOk ok p c image
  | marshal m => exact State.applyMarshal_identitiesOk ok p m image
  | settings => exact (s.applySettings_leavesIdentities ..).identitiesOk ok
  | handset | car => exact (s.modPort_portsOnly p _).leavesIdentities.identitiesOk ok

theorem State.applyStaged_identitiesOk {s : State} (ok : s.identitiesOk) (p : PortId) (st : Staging) :
    (s.applyStaged p st).identitiesOk := by
  have emptied := (s.modPort_portsOnly p fun pt => { pt with staging := none }).leavesIdentities.identitiesOk ok
  unfold State.applyStaged
  simp only
  split
  · exact (State.modPort_portsOnly ..).leavesIdentities.identitiesOk emptied
  · split
    · exact (State.modPort_portsOnly ..).leavesIdentities.identitiesOk emptied
    · split
      · exact (State.modPort_portsOnly ..).leavesIdentities.identitiesOk emptied
      · split
        · exact (State.modPort_portsOnly ..).leavesIdentities.identitiesOk emptied
        · exact State.applyRecord_identitiesOk emptied p st.ref st.image

theorem State.reqApply_identitiesOk {s : State} (ok : s.identitiesOk) (p : PortId) : (s.reqApply p).identitiesOk := by
  unfold State.reqApply
  split
  · exact (State.modPort_portsOnly ..).leavesIdentities.identitiesOk ok
  · exact State.applyStaged_identitiesOk ok p _

theorem State.reqPut_identitiesOk {s : State} (ok : s.identitiesOk) (p : PortId) (values : List Byte) :
    (s.reqPut p values).identitiesOk := by
  have unchanged : ∀ {t : State}, s.LeavesIdentities t → t.identitiesOk := fun h => h.identitiesOk ok
  unfold State.reqPut
  split
  · exact unchanged .of_blocks
  · simp only
    split
    · exact unchanged .of_blocks
    · split
      · exact unchanged .of_blocks
      · exact unchanged .of_blocks
      · split
        · exact State.applyStaged_identitiesOk ok p _
        · exact unchanged .of_blocks

theorem State.carryOut_identitiesOk {s : State} (ok : s.identitiesOk) (running : s.seq.starting = false) (p : PortId)
    (name : RequestName) (payload : List Byte) : (s.carryOut p name payload).identitiesOk := by
  have unchanged : ∀ {t : State}, s.LeavesIdentities t → t.identitiesOk := fun h => h.identitiesOk ok
  cases name with
  | poll => exact unchanged (s.done_leavesIdentities ..)
  | take => exact unchanged (s.reqTake_leavesIdentities ..)
  | portStatus => exact unchanged (.trans (s.modPort_portsOnly p _).leavesIdentities (State.done_leavesIdentities ..))
  | portSet => exact unchanged (s.reqPortSet_leavesIdentities ..)
  | portReset => exact unchanged (s.modPort_portsOnly p _).leavesIdentities
  | select => exact unchanged (s.reqSelect_leavesIdentities ..)
  | fetch => exact unchanged (s.reqFetch_leavesIdentities ..)
  | put => exact State.reqPut_identitiesOk ok p _
  | apply => exact State.reqApply_identitiesOk ok p
  | reportHandset => exact State.reqReportHandset_identitiesOk ok running ..
  | reportCrossing => exact unchanged (s.reqReportCrossing_leavesIdentities ..)
  | reportSwitch => exact unchanged (s.reqReportSwitch_leavesIdentities ..)
  | start => exact unchanged (s.reqStart_leavesIdentities ..)
  | stop => exact unchanged (s.reqStop_leavesIdentities ..)
  | caution => exact unchanged (s.reqCaution_leavesIdentities ..)
  | green => exact unchanged (s.reqGreen_leavesIdentities ..)
  | pitOpen | pitClose => exact unchanged (s.reqPit_leavesIdentities ..)
  | zoneLock => exact unchanged (s.reqZoneLock_leavesIdentities ..)
  | trackClear => exact unchanged (s.reqTrackClear_leavesIdentities ..)
  | switchDisable | switchEnable | switchClear => exact unchanged (s.reqSwitch_leavesIdentities ..)
  | layoutRun => exact unchanged (s.reqLayoutRun_leavesIdentities ..)
  | layoutEdit => exact unchanged (s.reqLayoutEdit_leavesIdentities ..)
  | openPairing => exact unchanged (s.reqOpenPairing_leavesIdentities ..)
  | closePairing => exact unchanged (s.reqClosePairing_leavesIdentities ..)
  | release => exact State.reqRelease_identitiesOk ok p _
  | storeSave => exact unchanged (s.reqStoreSave_leavesIdentities ..)

theorem State.answers.identitiesOk {s t : State} {p : PortId} (h : s.answers p t) (running : s.seq.starting = false)
    (ok : s.identitiesOk) : t.identitiesOk := by
  obtain h | ⟨name, payload, rfl⟩ := h
  · exact h.leavesIdentities.identitiesOk ok
  · exact State.carryOut_identitiesOk ((s.modPort_portsOnly p _).leavesIdentities.identitiesOk ok) running p name payload

/-! ### Requests during the start-up are refused (R150) -/

theorem State.request_portsOnly_of_starting {s : State} (on : s.seq.starting = true) (p : PortId) (op : State → State) :
    s.portsOnly (s.request p op) := by
  cases hd : (s.ports[p]).discarded with
  | true => exact State.request_discarded p op hd ▸ s.discardEnded_portsOnly p
  | false => exact State.request_starting p op on hd ▸ s.modPort_portsOnly p _

theorem exec_requestOf_of_starting {c : Instr} {p : PortId} {code : Byte} {payload : List Byte}
    (h : requestOf c = some (p, code, payload)) {s : State} (on : s.seq.starting = true) :
    ∃ t : State, exec c s = .next t ∧ s.portsOnly t := by
  cases c <;> simp only [requestOf, Option.some.injEq, Prod.mk.injEq, reduceCtorEq] at h
  case put q values =>
    refine ⟨_, rfl, ?_⟩
    cases hd : (s.ports[q]).discarded with
    | true => exact State.riseOfSel_discarded q _ hd ▸ s.discardEnded_portsOnly q
    | false =>
      rw [State.riseOfSel_kept q _ hd, if_pos (by simpa using on)]
      exact (s.modPort_portsOnly q _).trans (State.modPort_portsOnly ..)
  all_goals exact ⟨_, rfl, State.request_portsOnly_of_starting on ..⟩

theorem exec_requestFrame_of_starting {s : State} (on : s.seq.starting = true) (p : PortId) (sdi : List Bool) :
    ∃ t : State, exec (.requestFrame p sdi) s = .next t ∧ s.portsOnly t := by
  refine ⟨_, rfl, ?_⟩
  cases hd : (s.ports[p]).discarded with
  | true => exact State.riseOfSel_discarded p _ hd ▸ s.discardEnded_portsOnly p
  | false =>
    rw [State.riseOfSel_kept p _ hd]
    have ended : s.portsOnly (s.endTransaction p) := s.modPort_portsOnly p _
    split
    · exact ended
    · unfold State.judgeFrame
      rw [if_pos (by simpa using on)]
      exact ended.trans (State.modPort_portsOnly ..)

theorem exec_requestOf_identitiesOk {c : Instr} {p : PortId} {code : Byte} {payload : List Byte}
    (h : requestOf c = some (p, code, payload)) {s : State} (ok : s.identitiesOk) :
    ∃ t : State, exec c s = .next t ∧ t.identitiesOk := by
  cases on : s.seq.starting with
  | true =>
    obtain ⟨t, e, ports⟩ := exec_requestOf_of_starting h on
    exact ⟨t, e, ports.leavesIdentities.identitiesOk ok⟩
  | false =>
    obtain ⟨t, e, a⟩ := exec_requestOf_answers h s
    exact ⟨t, e, a.identitiesOk on ok⟩

theorem exec_requestFrame_identitiesOk {s : State} (ok : s.identitiesOk) (p : PortId) (sdi : List Bool) :
    ∃ t : State, exec (.requestFrame p sdi) s = .next t ∧ t.identitiesOk := by
  cases on : s.seq.starting with
  | true =>
    obtain ⟨t, e, ports⟩ := exec_requestFrame_of_starting on p sdi
    exact ⟨t, e, ports.leavesIdentities.identitiesOk ok⟩
  | false =>
    obtain ⟨t, e, a⟩ := exec_requestFrame_answers p sdi s
    exact ⟨t, e, a.identitiesOk on ok⟩

/-! ## Hard reset and the restore (R130, R148, R149) -/

/-- Without an identity anywhere there is none to hold twice, to mirror or to back. -/
theorem State.identitiesOk_of_vacant {s : State} (vacant : ∀ c : CarId, s.binding.bindings[c].held = none)
    (unlisted : ∀ m : MarshalId, s.binding.marshals[m].identity = none)
    (free : ∀ h : HandsetId, s.handsets.records[h] = none) : s.identitiesOk := by
  unfold State.identitiesOk
  simp only [vacant, unlisted, free]
  exact ⟨fun _ _ _ _ e => (by cases e), fun _ _ _ e => (by cases e), fun _ _ _ e => (by cases e),
    fun _ _ _ _ e => (by cases e), fun _ _ e => (by cases e), fun _ _ => trivial, fun _ _ e => (by cases e)⟩

theorem execHardReset_identitiesOk (rcs : BitVec 4) (s : State) :
    ∃ t : State, execHardReset rcs s = .next t ∧ t.identitiesOk :=
  ⟨_, rfl, State.identitiesOk_of_vacant
    (fun c => by simp [State.reset, BindingTable.reset, Binding.reset])
    (fun m => by simp [State.reset, BindingTable.reset, MarshalEntry.reset])
    (fun h => by simp [State.reset, HandsetTable.reset])⟩

/-- Nobody holds the identity of a row that restores its content (R148, R149). -/
theorem State.restoreAlert_none {s : State} {r : RowId} (h : s.restoreAlert r = none) {i : Ident}
    (hi : (s.validRow r).bind storedIdentity = some i) : s.marshalOf i = none ∧ s.carOf i = none := by
  obtain ⟨content, valid, stored⟩ := Option.bind_eq_some_iff.1 hi
  unfold State.restoreAlert at h
  rw [valid] at h
  simpa [stored, State.holderOfIdentity, Option.or_eq_none_iff] using h

/-- The holding that the restore gives a car. -/
def restoredHeld (identity : Option Ident) : Option Held := identity.map fun i => Held.mk i .restored .reserved

theorem State.restoreMarshal_sets (s : State) (m : MarshalId) : ∃ new : Option Ident,
    (∀ i : Ident, new = some i → s.marshalOf i = none ∧ s.carOf i = none) ∧
    (s.restoreMarshal m).seq = s.seq ∧ (s.restoreMarshal m).handsets = s.handsets ∧
    (s.restoreMarshal m).binding.bindings = s.binding.bindings ∧
    ∀ k : MarshalId, (s.restoreMarshal m).binding.marshals[k].identity =
      if k = m then new else s.binding.marshals[k].identity := by
  have set : ∀ (new : Option Ident) (mark : Mark) (k : MarshalId),
      (modAt s.binding.marshals m fun e => { e with identity := new, mark := mark })[k].identity =
        if k = m then new else s.binding.marshals[k].identity := fun new mark k => by
    rw [modAt_get]
    split <;> rfl
  unfold State.restoreMarshal
  simp only
  split
  · exact ⟨none, fun _ e => (by cases e), rfl, rfl, rfl, set none .dirty⟩
  · next restores => exact ⟨_, fun _ => State.restoreAlert_none restores, rfl, rfl, rfl, set _ .clean⟩

theorem State.restoreCar_sets (s : State) (c : CarId) : ∃ new : Option Ident,
    (∀ i : Ident, new = some i → s.marshalOf i = none ∧ s.carOf i = none) ∧
    (s.restoreCar c).seq = s.seq ∧ (s.restoreCar c).handsets = s.handsets ∧
    (s.restoreCar c).binding.marshals = s.binding.marshals ∧
    ∀ k : CarId, (s.restoreCar c).binding.bindings[k].held =
      if k = c then restoredHeld new else s.binding.bindings[k].held := by
  have set : ∀ (content : StoreContent) (mark : Mark) (k : CarId),
      (modAt s.binding.bindings c fun b => { b with
        held := (storedIdentity content).map fun i => Held.mk i .restored .reserved, ceiling := (storedLimits content).1,
        permit := (storedLimits content).2, mark := mark })[k].held =
          if k = c then restoredHeld (storedIdentity content) else s.binding.bindings[k].held := fun content mark k => by
    rw [modAt_get]
    split <;> rfl
  have delivered : storedIdentity (deliveredContent (rowOfCar c)) = none := by
    unfold deliveredContent
    rw [if_pos (show (rowOfCar c).val < 16 from c.isLt)]
    rfl
  unfold State.restoreCar
  simp only
  split
  · refine ⟨none, fun _ e => (by cases e), rfl, rfl, rfl, fun k => ?_⟩
    rw [← delivered]
    exact set _ .dirty k
  · next restores =>
    refine ⟨_, fun i hi => State.restoreAlert_none restores ?_, rfl, rfl, rfl, set _ .clean⟩
    cases valid : s.validRow (rowOfCar c) with
    | none =>
      rw [valid, Option.getD_none, delivered] at hi
      cases hi
    | some content =>
      rw [valid, Option.getD_some] at hi
      exact hi

/-- With no record in use, none comes to be in use by a change of identities. -/
theorem State.onlyFrees.records_eq {s t : State} (h : s.onlyFrees t) (free : ∀ k : HandsetId, s.handsets.records[k] = none) :
    t.handsets.records = s.handsets.records := bank_ext fun k => (h.2 k (free k)).trans (free k).symm

section
variable {s : State} (ok : s.identitiesOk) (on : s.seq.starting = true)
include ok on

theorem State.identitiesOk.no_records (h : HandsetId) : s.handsets.records[h] = none := by
  obtain ⟨-, -, -, -, -, startup, -⟩ := ok
  exact startup on h

/-- An entry restored is an entry relisted: there is no record to carry the change to. -/
theorem State.restoreMarshal_identitiesOk (m : MarshalId) : (s.restoreMarshal m).identitiesOk := by
  obtain ⟨new, free, seq, handsets, bindings, listed⟩ := s.restoreMarshal_sets m
  have relisted : (s.relist m new).identitiesOk := State.relist_identitiesOk ok fun i hi => by
    obtain ⟨unlisted, unheld⟩ := free i hi
    exact ⟨State.carOf_eq_none.1 unheld, fun n hn => absurd hn (State.marshalOf_eq_none.1 unlisted n)⟩
  have records : (s.relist m new).handsets.records = s.handsets.records :=
    (s.carryMarshal_onlyFrees s.binding.marshals[m].identity new).records_eq (ok.no_records on)
  have left : (s.relist m new).LeavesIdentities (s.restoreMarshal m) := by
    refine ⟨by rw [records, handsets], fun c => ?_, fun k => ?_, fun _ => ?_⟩
    · simp only [bindings, State.relist, State.putMarshal_fields, State.carryMarshal_fields]
    · rw [listed, State.relist_listed]
    · simpa only [State.relist, State.putMarshal_fields, State.carryMarshal_fields] using on
  exact left.identitiesOk relisted

/-- A car restored is RESERVED, whatever the record of its identity will be. -/
theorem State.restoreCar_identitiesOk (c : CarId) : (s.restoreCar c).identitiesOk := by
  obtain ⟨new, free, seq, handsets, marshals, held⟩ := s.restoreCar_sets c
  have rebound : (s.rebind c (restoredHeld new) id).identitiesOk := by
    refine State.rebind_identitiesOk ok id (fun a ha => ?_) fun a ha st => ?_ <;>
      obtain ⟨i, hi, rfl⟩ := Option.map_eq_some_iff.1 ha
    · obtain ⟨unlisted, unheld⟩ := free i hi
      exact ⟨fun k b hb e => absurd e (State.carOf_eq_none.1 unheld k b hb), State.marshalOf_eq_none.1 unlisted⟩
    · obtain e | e := st <;> cases e
  have records : (s.rebind c (restoredHeld new) id).handsets.records = s.handsets.records :=
    (s.rebind_onlyFrees ..).records_eq (ok.no_records on)
  have left : (s.rebind c (restoredHeld new) id).LeavesIdentities (s.restoreCar c) := by
    refine ⟨by rw [records, handsets], fun k => ?_, fun m => ?_, fun _ => ?_⟩
    · rw [held, State.rebind_held]
    · simp only [marshals, State.rebind_fields]
    · simpa only [State.rebind_fields] using on
  exact left.identitiesOk rebound

end

/-- The restore of rows, one after the other, keeps the identities and the start-up. -/
theorem State.foldl_identitiesOk {α : Type} {f : State → α → State}
    (h : ∀ (u : State) (a : α), u.identitiesOk → u.seq.starting = true → (f u a).identitiesOk ∧ (f u a).seq = u.seq)
    (l : List α) {s : State} (ok : s.identitiesOk) (on : s.seq.starting = true) :
    (l.foldl f s).identitiesOk ∧ (l.foldl f s).seq = s.seq := by
  induction l generalizing s with
  | nil => exact ⟨ok, rfl⟩
  | cons a as ih =>
    obtain ⟨ok', seq⟩ := h s a ok on
    obtain ⟨kept, same⟩ := ih ok' (by rw [seq]; exact on)
    exact ⟨kept, same.trans seq⟩

theorem State.restoreRows_identitiesOk {s : State} (ok : s.identitiesOk) (on : s.seq.starting = true) :
    s.restoreRows.identitiesOk := by
  obtain ⟨listed, seq⟩ := State.foldl_identitiesOk (f := State.restoreMarshal)
    (fun u m ok on => ⟨State.restoreMarshal_identitiesOk ok on m, (u.restoreMarshal_orderly m).seq⟩) (List.finRange 4) ok on
  obtain ⟨bound, -⟩ := State.foldl_identitiesOk (f := State.restoreCar)
    (fun u c ok on => ⟨State.restoreCar_identitiesOk ok on c, (u.restoreCar_orderly c).seq⟩) (List.finRange 16) listed
    (by rw [seq]; exact on)
  exact bound

theorem execRestore_identitiesOk {s : State} (ok : s.identitiesOk) :
    ∃ t : State, execRestore s = .next t ∧ t.identitiesOk := by
  unfold execRestore
  split
  · next due =>
    have rows := State.restoreRows_identitiesOk ok (Bool.and_eq_true_iff.1 due).1
    simp only
    generalize s.restoreRows = u at rows
    exact ⟨_, rfl, State.LeavesIdentities.identitiesOk ⟨rfl, fun _ => rfl, fun _ => rfl, id⟩ rows⟩
  · exact ⟨_, rfl, ok⟩

/-! ## Every command -/

theorem exec_identitiesOk (c : Instr) {s : State} (ok : s.identitiesOk) :
    ∃ t : State, exec c s = .next t ∧ t.identitiesOk := by
  have unchanged : ∀ {o : Host.Outcome State Fault Refusal}, (∃ t : State, o = .next t ∧ s.LeavesIdentities t) →
      ∃ t : State, o = .next t ∧ t.identitiesOk := fun ⟨t, e, left⟩ => ⟨t, e, left.identitiesOk ok⟩
  cases c
  case hardReset rcs => exact execHardReset_identitiesOk rcs s
  case trackTimeTick => exact unchanged ⟨_, rfl, .of_blocks⟩
  case restore => exact execRestore_identitiesOk ok
  case restoreEnd => exact unchanged (execRestoreEnd_leavesIdentities s)
  case selnFall p => exact unchanged ⟨_, rfl, (s.modPort_portsOnly p _).leavesIdentities⟩
  case requestFrame p sdi => exact exec_requestFrame_identitiesOk ok p sdi
  case staleExpiry h => exact execStaleExpiry_identitiesOk ok h
  case handsetLostExpiry h => exact execHandsetLostExpiry_identitiesOk ok h
  case pitExitRecheck w => exact unchanged (execPitExitRecheck_leavesIdentities w s)
  case actuationDeadline w => exact unchanged (execActuationDeadline_leavesIdentities w s)
  case holdDeadline w => exact unchanged (execHoldDeadline_leavesIdentities w s)
  case restoringActuationDeadline w => exact unchanged (execRestoringActuationDeadline_leavesIdentities w s)
  case intentExpiry c => exact unchanged (execIntentExpiry_leavesIdentities c s)
  case conflictCapEnd c => exact unchanged (execConflictCapEnd_leavesIdentities c s)
  case stall c => exact unchanged (execStall_leavesIdentities c s)
  case offerExpiry c => exact unchanged ⟨_, rfl, s.modOffers_leavesIdentities _⟩
  case pairingWindowExpiry => exact unchanged (execPairingWindowExpiry_leavesIdentities s)
  case lampExpiry => exact unchanged (execLampExpiry_leavesIdentities s)
  case writerCommitStart => exact unchanged ⟨_, rfl, s.chooseCommit_leavesIdentities⟩
  case writerStepEnd => exact unchanged (execWriterStepEnd_leavesIdentities s)
  case commitCompletion => exact unchanged (execCommitCompletion_leavesIdentities s)
  case stweFall => exact unchanged (execStweFall_leavesIdentities s)
  case stweRise => exact unchanged ⟨_, rfl, .of_blocks⟩
  case railFrameStart => exact unchanged (execRailFrameStart_leavesIdentities s)
  case broadcastWord => exact unchanged (execBroadcastWord_leavesIdentities s)
  case carWord c => exact unchanged (execCarWord_leavesIdentities c s)
  case quietWindow => exact unchanged (execQuietWindow_leavesIdentities s)
  all_goals exact exec_requestOf_identitiesOk rfl ok

/-- Settles O57: every command keeps the identities, and so does a bit period. -/
theorem everyStepKeepsTheIdentities : Obligations.EveryStepKeepsTheIdentities := by
  intro s t ok h
  unfold step at h
  split at h
  · cases h
    exact s.bitPeriod_leavesIdentities.identitiesOk ok
  · next c rest _ =>
    obtain ⟨u, e, kept⟩ := exec_identitiesOk (s := { s with pending := rest }) c ok
    rw [e] at h
    cases h
    exact kept

end Sys2Proof.Machine
end

section
/-! An accepted report in the statements' words: its record, what its link transition and its battery mark hand on, and its
code edge, on the state taken (R21 to R28, R31, R36). -/

namespace Sys2Proof.Machine

-- One after the other, the proofs need no thread each.
set_option Elab.async false

/-! ## Taking a request commutes with what a report does -/

section
variable (s : State) (p : PortId)

theorem State.taken_putRecord (h : HandsetId) (r : Option Handset) :
    (s.taken p).putRecord h r = (s.putRecord h r).taken p := rfl

theorem State.taken_offerWithRaceControl (q : PortId) (body : NoticeBody) :
    (s.taken p).offerWithRaceControl q body = (s.offerWithRaceControl q body).taken p := by
  unfold State.offerWithRaceControl
  rw [State.taken_hasRights, State.taken_offerWhere]

theorem State.taken_offerTo (q : PortId) (body : NoticeBody) :
    (s.taken p).offerTo q body = (s.offerTo q body).taken p := s.taken_offerWhere p _ body

theorem State.taken_offerAll (body : NoticeBody) : (s.taken p).offerAll body = (s.offerAll body).taken p :=
  s.taken_offerWhere p _ body

theorem State.taken_changeBinding (c : CarId) (f : Binding → Binding) :
    (s.taken p).changeBinding c f = (s.changeBinding c f).taken p :=
  State.taken_offerRaceControl { s with binding := { s.binding with
    bindings := modAt s.binding.bindings c fun b => { f b with revision := b.revision + 1, mark := .dirty } } } p _

theorem State.taken_moveBinding (c : CarId) (source : HeldState → Bool) (target : HeldState) :
    (s.taken p).moveBinding c source target = (s.moveBinding c source target).taken p := by
  unfold State.moveBinding
  simp only [State.taken_fields]
  cases s.binding.bindings[c].held with
  | none => rfl
  | some a =>
    by_cases moves : source a.state = true
    · simp only [if_pos moves]
      exact s.taken_changeBinding ..
    · simp only [if_neg moves]

theorem State.taken_announceLink (r : Handset) : (s.taken p).announceLink r = (s.announceLink r).taken p := by
  unfold State.announceLink
  change ((s.holderOf r).elim _ _) = _
  cases s.holderOf r with
  | none => rfl
  | some holder => exact s.taken_offerWithRaceControl ..

theorem State.taken_handLive (r : Handset) : (s.taken p).handLive r = (s.handLive r).taken p := by
  unfold State.handLive
  cases r.boundCar with
  | none => exact s.taken_announceLink ..
  | some c =>
    simp only [Option.elim_some, State.taken_moveBinding, State.taken_announceLink]

end

/-! ## What the Handset Table does not read of it -/

theorem State.announceLink_putRecord (s : State) (q : Handset) (h : HandsetId) (r : Option Handset) :
    (s.putRecord h r).announceLink q = (s.announceLink q).putRecord h r := by
  unfold State.announceLink
  change ((s.holderOf q).elim _ _) = _
  cases s.holderOf q <;> rfl

theorem State.handLive_putRecord (s : State) (q : Handset) (h : HandsetId) (r : Option Handset) :
    (s.putRecord h r).handLive q = (s.handLive q).putRecord h r := by
  unfold State.handLive
  cases q.boundCar with
  | none => exact s.announceLink_putRecord ..
  | some c => simp only [Option.elim_some, State.moveBinding_putRecord, State.announceLink_putRecord]

theorem State.putRecord_putRecord (s : State) (h : HandsetId) (a b : Option Handset) :
    (s.putRecord h a).putRecord h b = s.putRecord h b := by
  unfold State.putRecord
  simp only [modAt_modAt]

/-! ## What a report hands on (R26 steps 2 and 3) -/

/-- A move of record r into LIVE is handed on, and a change of its battery mark. -/
def State.handedOn (s : State) (p : PortId) (r : Handset) (link : LinkState) (battery : Byte) : State :=
  (if r.link ≠ .live ∧ link = .live then s.wentLive p r else s).batteryNotice p r battery

theorem State.accepted_eq (s : State) (p : PortId) (h : HandsetId) (r : Handset)
    (count throttle code battery strength : Byte) :
    s.accepted p h r count throttle code battery strength =
      (s.putRecord h (some (r.reported p count throttle code battery strength (r.linkAfter count) s.now))).handedOn p r
        (r.linkAfter count) battery := rfl

theorem State.handedOn_still {s : State} {p : PortId} {r : Handset} {link : LinkState} (battery : Byte)
    (h : ¬ (r.link ≠ .live ∧ link = .live)) : s.handedOn p r link battery = s.batteryNotice p r battery :=
  congrArg (fun u : State => u.batteryNotice p r battery) (if_neg h)

theorem State.handedOn_live {s : State} {p : PortId} {r : Handset} {link : LinkState} (battery : Byte)
    (h : r.link ≠ .live ∧ link = .live) :
    s.handedOn p r link battery = (s.wentLive p r).batteryNotice p r battery :=
  congrArg (fun u : State => u.batteryNotice p r battery) (if_pos h)

/-- The record as it is when it is handed on as LIVE. -/
def Handset.gone (r : Handset) (p : PortId) : Handset := { r with link := .live, heardStation := p }

theorem State.wentLive_eq (s : State) (p : PortId) (r : Handset) : s.wentLive p r = s.handLive (r.gone p) :=
  (s.handLive_eq p (r.gone p) rfl rfl).symm

theorem State.batteryNotice_putRecord (s : State) (p : PortId) (q : Handset) (battery : Byte) (h : HandsetId)
    (r : Option Handset) :
    (s.putRecord h r).batteryNotice p q battery = (s.batteryNotice p q battery).putRecord h r := by
  unfold State.batteryNotice
  split <;> rfl

theorem State.handedOn_putRecord (s : State) (p : PortId) (q : Handset) (link : LinkState) (battery : Byte)
    (h : HandsetId) (r : Option Handset) :
    (s.putRecord h r).handedOn p q link battery = (s.handedOn p q link battery).putRecord h r := by
  unfold State.handedOn
  split
  · rw [State.wentLive_eq, State.wentLive_eq, State.handLive_putRecord, State.batteryNotice_putRecord]
  · exact s.batteryNotice_putRecord ..

theorem State.taken_batteryNotice (s : State) (p q : PortId) (r : Handset) (battery : Byte) :
    (s.taken p).batteryNotice q r battery = (s.batteryNotice q r battery).taken p := by
  unfold State.batteryNotice
  split
  · rfl
  · exact s.taken_offerTo ..

theorem State.taken_handedOn (s : State) (p : PortId) (r : Handset) (link : LinkState) (battery : Byte) :
    (s.taken p).handedOn p r link battery = (s.handedOn p r link battery).taken p := by
  unfold State.handedOn
  split
  · rw [State.wentLive_eq, State.wentLive_eq, State.taken_handLive, State.taken_batteryNotice]
  · exact s.taken_batteryNotice ..

theorem State.taken_accepted (s : State) (p : PortId) (h : HandsetId) (r : Handset)
    (count throttle code battery strength : Byte) :
    (s.taken p).accepted p h r count throttle code battery strength =
      (s.accepted p h r count throttle code battery strength).taken p := by
  rw [State.accepted_eq, State.accepted_eq, State.taken_putRecord, State.taken_handedOn, State.taken_now]

/-! ### The blocks that are left -/

@[simp] theorem State.moveBinding_fields (s : State) (c : CarId) (source : HeldState → Bool) (target : HeldState) :
    (s.moveBinding c source target).seq = s.seq ∧ (s.moveBinding c source target).geo = s.geo ∧
    (s.moveBinding c source target).handsets = s.handsets ∧
    (s.moveBinding c source target).binding.marshals = s.binding.marshals ∧
    (s.moveBinding c source target).binding.window = s.binding.window ∧
    (s.moveBinding c source target).binding.offers = s.binding.offers ∧
    (s.moveBinding c source target).tracker = s.tracker ∧ (s.moveBinding c source target).lane = s.lane ∧
    (s.moveBinding c source target).course = s.course ∧ (s.moveBinding c source target).store = s.store ∧
    (s.moveBinding c source target).rcs = s.rcs ∧ (s.moveBinding c source target).freeCount = s.freeCount ∧
    (s.moveBinding c source target).pending = s.pending := by
  obtain ⟨_, -, -, e⟩ | ⟨-, e⟩ := s.moveBinding_cases c source target <;> rw [e] <;> simp

@[simp] theorem State.announceLink_fields (s : State) (r : Handset) :
    (s.announceLink r).seq = s.seq ∧ (s.announceLink r).geo = s.geo ∧ (s.announceLink r).handsets = s.handsets ∧
    (s.announceLink r).binding = s.binding ∧ (s.announceLink r).tracker = s.tracker ∧
    (s.announceLink r).lane = s.lane ∧ (s.announceLink r).course = s.course ∧ (s.announceLink r).store = s.store ∧
    (s.announceLink r).rcs = s.rcs ∧ (s.announceLink r).freeCount = s.freeCount ∧
    (s.announceLink r).pending = s.pending := by
  rw [s.announceLink_portsOnly r]
  simp

@[simp] theorem State.handLive_fields (s : State) (r : Handset) :
    (s.handLive r).seq = s.seq ∧ (s.handLive r).geo = s.geo ∧ (s.handLive r).handsets = s.handsets ∧
    (s.handLive r).binding.marshals = s.binding.marshals ∧ (s.handLive r).binding.window = s.binding.window ∧
    (s.handLive r).binding.offers = s.binding.offers ∧ (s.handLive r).tracker = s.tracker ∧
    (s.handLive r).lane = s.lane ∧ (s.handLive r).course = s.course ∧ (s.handLive r).store = s.store ∧
    (s.handLive r).rcs = s.rcs ∧ (s.handLive r).freeCount = s.freeCount ∧ (s.handLive r).pending = s.pending := by
  unfold State.handLive
  cases r.boundCar <;> simp

theorem State.batteryNotice_portsOnly (s : State) (p : PortId) (r : Handset) (battery : Byte) :
    s.portsOnly (s.batteryNotice p r battery) := by
  unfold State.batteryNotice
  split
  · exact s.portsOnly_refl
  · exact s.offerWhere_portsOnly ..

@[simp] theorem State.batteryNotice_fields (s : State) (p : PortId) (r : Handset) (battery : Byte) :
    (s.batteryNotice p r battery).seq = s.seq ∧ (s.batteryNotice p r battery).geo = s.geo ∧
    (s.batteryNotice p r battery).handsets = s.handsets ∧ (s.batteryNotice p r battery).binding = s.binding ∧
    (s.batteryNotice p r battery).tracker = s.tracker ∧ (s.batteryNotice p r battery).lane = s.lane ∧
    (s.batteryNotice p r battery).course = s.course ∧ (s.batteryNotice p r battery).store = s.store ∧
    (s.batteryNotice p r battery).rcs = s.rcs ∧ (s.batteryNotice p r battery).freeCount = s.freeCount ∧
    (s.batteryNotice p r battery).pending = s.pending := by
  rw [s.batteryNotice_portsOnly p r battery]
  simp

@[simp] theorem State.handedOn_fields (s : State) (p : PortId) (r : Handset) (link : LinkState) (battery : Byte) :
    (s.handedOn p r link battery).seq = s.seq ∧ (s.handedOn p r link battery).geo = s.geo ∧
    (s.handedOn p r link battery).handsets = s.handsets ∧
    (s.handedOn p r link battery).binding.marshals = s.binding.marshals ∧
    (s.handedOn p r link battery).binding.window = s.binding.window ∧
    (s.handedOn p r link battery).binding.offers = s.binding.offers ∧
    (s.handedOn p r link battery).tracker = s.tracker ∧ (s.handedOn p r link battery).lane = s.lane ∧
    (s.handedOn p r link battery).course = s.course ∧ (s.handedOn p r link battery).store = s.store ∧
    (s.handedOn p r link battery).rcs = s.rcs ∧ (s.handedOn p r link battery).freeCount = s.freeCount ∧
    (s.handedOn p r link battery).pending = s.pending := by
  unfold State.handedOn
  split
  · rw [State.wentLive_eq]
    simp
  · simp

/-! ## The four steps of an accepted report (R26, R36) -/

/-- The report that a payload in range carries (R21). -/
def reportOf (identity : Ident) (count throttle code battery strength : Byte) : Report :=
  { identity := identity, count := count.setWidth 4, throttle := throttle.setWidth 6, code := code.setWidth 4,
    batteryLow := battery.getLsbD 0, strength := strength.setWidth 4 }

/-- The record after steps 1 and 2: the report taken, and the link moved with its stamp. -/
def Handset.moved (r : Handset) (rep : Report) (p : PortId) (link : LinkState) (now : Time) : Handset :=
  { r.takeReport rep p now with link := link, stateStamp := if link = r.link then r.stateStamp else now }

section
variable {s : State} {h : HandsetId} {r : Handset} (p : PortId)

theorem State.moveLink_other (hr : s.handsets.records[h] = some r) {link : LinkState} (other : link ≠ r.link) :
    s.moveLink h r link =
      if link = .live then
        (s.putRecord h (some { r with link := link, stateStamp := s.now })).handLive
          { r with link := link, stateStamp := s.now }
      else s.putRecord h (some { r with link := link, stateStamp := s.now }) := by
  unfold State.moveLink
  rw [if_neg other]
  simp only
  rw [State.modHandset_eq hr]

/-- Steps 1 and 2: the record is written once, and a move into LIVE is handed on. -/
theorem State.moveLink_taken (s : State) (h : HandsetId) (r : Handset) (rep : Report) (link : LinkState) :
    (s.putRecord h (some (r.takeReport rep p s.now))).moveLink h (r.takeReport rep p s.now) link =
      if r.link ≠ .live ∧ link = .live then (s.putRecord h (some (r.moved rep p link s.now))).wentLive p r
      else s.putRecord h (some (r.moved rep p link s.now)) := by
  by_cases same : link = r.link
  · have kept : r.moved rep p link s.now = r.takeReport rep p s.now := by
      unfold Handset.moved
      rw [if_pos same, same]
      rfl
    rw [if_neg fun ⟨away, into⟩ => away (same.symm.trans into), kept]
    exact if_pos same
  · have stamped : r.moved rep p link s.now =
        { r.takeReport rep p s.now with link := link, stateStamp := s.now } := by
      unfold Handset.moved
      rw [if_neg same]
    have put := State.moveLink_other
      ((s.putRecord_records h h (some (r.takeReport rep p s.now))).trans (if_pos rfl)) same
    rw [State.putRecord_putRecord] at put
    rw [put, stamped]
    by_cases into : link = .live
    · subst into
      have away : r.link ≠ .live := fun e => same e.symm
      rw [if_pos rfl, if_pos ⟨away, rfl⟩]
      exact State.handLive_eq _ p _ rfl rfl
    · rw [if_neg into, if_neg fun ⟨_, e⟩ => into e]
      rfl

/-- Step 4 without an edge: the candidate code is the report's. -/
theorem State.validate_still (hr : s.handsets.records[h] = some r) {rep : Report}
    (still : ¬ (rep.code = r.candidateCode ∧ rep.code ≠ r.heldCode)) :
    s.validate h rep p = s.putRecord h (some { r with candidateCode := rep.code }) := by
  have no_edge : (rep.code == r.candidateCode && rep.code != r.heldCode) = false := by
    simpa [bne_iff_ne] using still
  unfold State.validate
  rw [hr]
  simp only [no_edge, Bool.false_eq_true, if_false]
  exact State.modHandset_eq hr _

/-- Step 4 with an edge: the held code is the report's, and the edge takes effect. -/
theorem State.validate_edge (hr : s.handsets.records[h] = some r) {rep : Report}
    (edge : rep.code = r.candidateCode ∧ rep.code ≠ r.heldCode) :
    s.validate h rep p = (s.putRecord h (some { r with heldCode := rep.code, candidateCode := rep.code })).handEdge
      { r with heldCode := rep.code, candidateCode := rep.code } p rep.strength := by
  have is_edge : (rep.code == r.candidateCode && rep.code != r.heldCode) = true := by
    simpa [bne_iff_ne] using edge
  unfold State.validate
  rw [hr]
  simp only [is_edge, if_true]
  rw [State.modHandset_eq hr]

variable {identity : Ident} {count throttle code battery strength : Byte}

/-- The record of an accepted report, in the statements' words, by whether the report completes an edge. -/
theorem Handset.reported_still (still : ¬ r.edge code) (link : LinkState) (now : Time) :
    r.reported p count throttle code battery strength link now =
      { r.moved (reportOf identity count throttle code battery strength) p link now with
        candidateCode := code.setWidth 4 } := by
  have held : (if code.setWidth 4 = r.candidateCode then code.setWidth 4 else r.heldCode) = r.heldCode := by
    split
    · next same => exact by_contra fun differ => still ⟨same, differ⟩
    · rfl
  unfold Handset.reported
  rw [held]
  rfl

theorem Handset.reported_edge (edge : r.edge code) (link : LinkState) (now : Time) :
    r.reported p count throttle code battery strength link now =
      { r.moved (reportOf identity count throttle code battery strength) p link now with
        heldCode := code.setWidth 4, candidateCode := code.setWidth 4 } := by
  unfold Handset.reported
  rw [if_pos edge.1]
  rfl

theorem State.handedOn_records (s : State) (h : HandsetId) (q r : Handset) (link : LinkState) :
    ((s.putRecord h (some q)).handedOn p r link battery).handsets.records[h] = some q := by
  rw [State.handedOn_putRecord]
  exact (State.putRecord_records ..).trans (if_pos rfl)

/-- An accepted report up to its fourth step. -/
theorem State.acceptReport_validates (hr : s.handsets.records[h] = some r) (link : LinkState) :
    s.acceptReport p h r (reportOf identity count throttle code battery strength) link =
      (((s.putRecord h (some (r.moved (reportOf identity count throttle code battery strength) p link s.now))).handedOn p r
        link battery).validate h (reportOf identity count throttle code battery strength) p).done p [0] := by
  unfold State.acceptReport
  simp only
  rw [State.modHandset_eq hr, State.moveLink_taken]
  rfl

theorem State.acceptReport_still (hr : s.handsets.records[h] = some r) (still : ¬ r.edge code) (link : LinkState) :
    s.acceptReport p h r (reportOf identity count throttle code battery strength) link =
      ((s.putRecord h (some (r.reported p count throttle code battery strength link s.now))).handedOn p r link
        battery).done p [0] := by
  have validated := State.validate_still (rep := reportOf identity count throttle code battery strength) p
    (s.handedOn_records p (battery := battery) h
      (r.moved (reportOf identity count throttle code battery strength) p link s.now) r link) still
  rw [State.acceptReport_validates p hr, validated,
    ← State.handedOn_putRecord, State.putRecord_putRecord, Handset.reported_still (identity := identity) p still]
  rfl

theorem State.acceptReport_edge (hr : s.handsets.records[h] = some r) (edge : r.edge code) (link : LinkState) :
    s.acceptReport p h r (reportOf identity count throttle code battery strength) link =
      (((s.putRecord h (some (r.reported p count throttle code battery strength link s.now))).handedOn p r link
        battery).handEdge (r.reported p count throttle code battery strength link s.now) p
          (strength.setWidth 4)).done p [0] := by
  have validated := State.validate_edge (rep := reportOf identity count throttle code battery strength) p
    (s.handedOn_records p (battery := battery) h
      (r.moved (reportOf identity count throttle code battery strength) p link s.now) r link) edge
  rw [State.acceptReport_validates p hr, validated,
    ← State.handedOn_putRecord, State.putRecord_putRecord, Handset.reported_edge (identity := identity) p edge]
  rfl

end

/-! ## The request (R21, R22, R24) -/

theorem identOf_eq_none {x : BitVec 16} : identOf x = none ↔ x = 0 ∨ x = 0xFFFF := by
  unfold identOf
  split
  · next h => exact iff_of_true rfl h
  · next h => exact iff_of_false (Option.some_ne_none x) h

section
variable {identity : Ident} {count throttle code battery strength : Byte}

/-- The places of the values that fail their test. -/
theorem mem_filterMap_places {l : List (Bool × Byte)} {k : Byte} :
    k ∈ l.filterMap (fun (bad, place) => if bad then some place else none) ↔ (true, k) ∈ l := by
  rw [List.mem_filterMap]
  constructor
  · rintro ⟨⟨bad, place⟩, mem, e⟩
    obtain ⟨rfl, e⟩ := Option.ite_none_right_eq_some.1 e
    cases e
    exact mem
  · exact fun mem => ⟨(true, k), mem, rfl⟩

theorem mem_reportRangePlaces {k : Byte} :
    k ∈ reportRangePlaces identity count throttle code strength ↔
      k = 1 ∧ (identity = 0 ∨ identity = 0xFFFF) ∨ k = 2 ∧ 15 < count.toNat ∨ k = 3 ∧ 63 < throttle.toNat ∨
        k = 4 ∧ 15 < code.toNat ∨ k = 6 ∧ 15 < strength.toNat := by
  refine mem_filterMap_places.trans ?_
  rw [← identOf_eq_none]
  simp only [List.mem_cons, List.not_mem_nil, or_false, Prod.mk.injEq, @eq_comm Bool true, Option.isNone_iff_eq_none,
    decide_eq_true_eq, and_comm]

theorem reportRangePlaces_eq_nil :
    reportRangePlaces identity count throttle code strength = [] ↔
      reportInRange identity count throttle code strength := by
  rw [List.eq_nil_iff_forall_not_mem]
  simp only [mem_reportRangePlaces]
  unfold reportInRange
  constructor
  · intro none
    have h1 := none 1
    have h2 := none 2
    have h3 := none 3
    have h4 := none 4
    have h6 := none 6
    simp at h1 h2 h3 h4 h6
    exact ⟨h1.1, h1.2, h2, h3, h4, h6⟩
  · rintro ⟨id0, idF, hc, ht, hk, hs⟩ k bad
    obtain ⟨-, e | e⟩ | ⟨-, e⟩ | ⟨-, e⟩ | ⟨-, e⟩ | ⟨-, e⟩ := bad
    · exact id0 e
    · exact idF e
    all_goals omega

theorem State.reqReportHandset_inRange {s : State} (p : PortId)
    (h : reportInRange identity count throttle code strength) :
    s.reqReportHandset p identity count throttle code battery strength =
      s.filterReport p (reportOf identity count throttle code battery strength) := by
  unfold State.reqReportHandset
  simp only [reportRangePlaces_eq_nil.2 h, List.isEmpty_nil, if_true]
  rfl

theorem exec_reportHandset {p : PortId} {s : State} (takes : s.takes p)
    (h : reportInRange identity count throttle code strength) :
    exec (.reportHandset p identity count throttle code battery strength) s =
      .next ((s.taken p).filterReport p (reportOf identity count throttle code battery strength)) := by
  change Host.Outcome.next (s.request p fun u => u.reqReportHandset p identity count throttle code battery strength) = _
  rw [State.request_running p _ takes, State.reqReportHandset_inRange p h]

/-- In ACQUIRING and LIVE the count difference decides (Table 2-3). -/
theorem State.knownReport_heard (s : State) {r : Handset} (heard : r.link = .acquiring ∨ r.link = .live) (p : PortId)
    (h : HandsetId) :
    s.knownReport p h r (reportOf identity count throttle code battery strength) =
      if r.difference count = 0 then
        (s.modHandset h fun r => { r with duplicateCount := satInc r.duplicateCount }).reportDone p 1
      else if 8 ≤ r.difference count then
        (s.modHandset h fun r => { r with lateCount := satInc r.lateCount }).reportDone p 2
      else s.acceptReport p h r (reportOf identity count throttle code battery strength)
        (if r.difference count = 1 then .live else r.link) := by
  unfold State.knownReport Handset.difference
  obtain link | link := heard <;> rw [link] <;> rfl

/-- In STALE and LOST every report is accepted, into ACQUIRING (R31). -/
theorem State.knownReport_silent (s : State) {r : Handset} (silent : ¬ (r.link = .acquiring ∨ r.link = .live)) (p : PortId)
    (h : HandsetId) (rep : Report) : s.knownReport p h r rep = s.acceptReport p h r rep .acquiring := by
  unfold State.knownReport
  cases link : r.link with
  | acquiring => exact absurd (.inl link) silent
  | live => exact absurd (.inr link) silent
  | stale | lost => rfl

section
variable {p : PortId} {s : State} {h : HandsetId} {r : Handset} (hears : s.hears p h r identity count throttle code strength)
include hears

theorem exec_reportHandset_known :
    exec (.reportHandset p identity count throttle code battery strength) s =
      .next ((s.taken p).knownReport p h r (reportOf identity count throttle code battery strength)) := by
  obtain ⟨takes, inRange, found, hr, -⟩ := hears
  rw [exec_reportHandset takes inRange]
  have known : (s.taken p).handsetOf (reportOf identity count throttle code battery strength).identity = some h := found
  unfold State.filterReport
  simp only [known, State.taken_fields, hr, Option.elim_some]

/-- A report that the filter accepts, in any link state. -/
theorem exec_reportHandset_accepted (accepts : r.accepts count) :
    exec (.reportHandset p identity count throttle code battery strength) s =
      .next ((s.taken p).acceptReport p h r (reportOf identity count throttle code battery strength)
        (r.linkAfter count)) := by
  rw [exec_reportHandset_known hears]
  by_cases heard : r.link = .acquiring ∨ r.link = .live
  · obtain ⟨low, high⟩ := accepts heard
    have link : (if r.difference count = 1 then .live else r.link) = r.linkAfter count := by
      unfold Handset.linkAfter
      obtain e | e := heard <;> simp [e]
    rw [State.knownReport_heard _ heard, if_neg (show ¬ r.difference count = 0 by omega),
      if_neg (show ¬ 8 ≤ r.difference count by omega), link]
  · have link : LinkState.acquiring = r.linkAfter count :=
      (if_neg fun e => heard (e.elim .inr fun ⟨e, _⟩ => .inl e)).symm
    rw [State.knownReport_silent _ heard, link]

theorem exec_reportHandset_still (accepts : r.accepts count) (still : ¬ r.edge code) :
    exec (.reportHandset p identity count throttle code battery strength) s =
      .next ((s.accepted p h r count throttle code battery strength).answer p (.done [0])) := by
  rw [exec_reportHandset_accepted hears accepts]
  obtain ⟨-, -, -, hr, -⟩ := hears
  rw [State.acceptReport_still p (s := s.taken p) hr still, ← State.accepted_eq, State.taken_accepted, State.taken_done]

end
end

end Sys2Proof.Machine
end

section
/-! Handset reports: dropped, first, accepted and LIVE (R20 to R28, R34 to R36, R43). -/

namespace Sys2Proof.Machine

-- One after the other, the proofs need no thread each.
set_option Elab.async false

/-! ## Dropped reports (R21, R23, R25) -/

section
variable {p : PortId} {identity : Ident} {count throttle code battery strength : Byte} {s : State}

theorem exec_reportHandset_out_of_range (takes : s.takes p)
    (bad : ¬ reportInRange identity count throttle code strength) :
    ∃ (k : Byte) (n : Nat), k ∈ reportRangePlaces identity count throttle code strength ∧
      exec (.reportHandset p identity count throttle code battery strength) s =
        .next (({ s with freeCount := n }).answer p (.refused (.range k))) := by
  have places : reportRangePlaces identity count throttle code strength ≠ [] := bad ∘ reportRangePlaces_eq_nil.1
  obtain ⟨k, n, mem, e⟩ := (s.taken p).refuseRange_spec p _ places
  refine ⟨k, n, mem, ?_⟩
  change Host.Outcome.next (s.request p fun u => u.reqReportHandset p identity count throttle code battery strength) = _
  rw [State.request_running p _ takes]
  unfold State.reqReportHandset
  simp only [List.isEmpty_iff, if_neg places]
  rw [e, ← State.taken_refuse]
  rfl

theorem exec_reportHandset_dropped {h : HandsetId} {r : Handset}
    (hears : s.hears p h r identity count throttle code strength) (heard : r.link = .acquiring ∨ r.link = .live) :
    (r.difference count = 0 → exec (.reportHandset p identity count throttle code battery strength) s =
      .next ((s.putRecord h (some { r with duplicateCount := min (r.duplicateCount + 1) 255 })).answer p (.done [1]))) ∧
    (8 ≤ r.difference count → exec (.reportHandset p identity count throttle code battery strength) s =
      .next ((s.putRecord h (some { r with lateCount := min (r.lateCount + 1) 255 })).answer p (.done [2]))) := by
  rw [exec_reportHandset_known hears, State.knownReport_heard _ heard]
  obtain ⟨-, -, -, hr, -⟩ := hears
  have rewritten := fun f : Handset → Handset => State.modHandset_eq (s := s.taken p) (h := h) hr f
  refine ⟨fun zero => ?_, fun late => ?_⟩
  · rw [if_pos zero, rewritten, State.taken_putRecord]
    exact congrArg Host.Outcome.next (State.taken_done ..)
  · rw [if_neg (show ¬ r.difference count = 0 by omega), if_pos late, rewritten, State.taken_putRecord]
    exact congrArg Host.Outcome.next (State.taken_done ..)

theorem exec_reportHandset_full (takes : s.takes p) (inRange : reportInRange identity count throttle code strength)
    (full : ∀ h : HandsetId, ∃ r : Handset, s.handsets.records[h] = some r ∧ r.identity ≠ identity) :
    (s.handsets.fullAlert = .sent → exec (.reportHandset p identity count throttle code battery strength) s =
      .next (s.answer p (.done [3]))) ∧
    (s.handsets.fullAlert = .armed → exec (.reportHandset p identity count throttle code battery strength) s =
      .next ((({ s with handsets := { s.handsets with fullAlert := .sent } }).offerRaceControl
        (.handsetTableFull identity)).answer p (.done [3]))) := by
  have unknown : (s.taken p).handsetOf (reportOf identity count throttle code battery strength).identity = none :=
    State.handsetOf_eq_none.2 fun h r hr => by
      obtain ⟨q, hq, differ⟩ := full h
      cases Option.some.inj (hr.symm.trans hq)
      exact differ
  have none_free : (s.taken p).freeRecord = none := firstIdx_eq_none.2 fun h => by
    obtain ⟨r, hr, -⟩ := full h
    simp only [State.taken_fields, hr, Option.isNone_some]
  rw [exec_reportHandset takes inRange]
  unfold State.filterReport State.firstReport
  simp only [unknown, none_free, State.taken_fields]
  refine ⟨fun sent => ?_, fun armed => ?_⟩
  · rw [sent]
    exact congrArg Host.Outcome.next (State.taken_done ..)
  · rw [armed]
    have told := State.taken_offerRaceControl { s with handsets := { s.handsets with fullAlert := .sent } } p
      (.handsetTableFull identity)
    have answered := State.taken_done (({ s with handsets := { s.handsets with fullAlert := .sent } }).offerRaceControl
      (.handsetTableFull identity)) p [3]
    rw [← told] at answered
    exact congrArg Host.Outcome.next answered

end

/-- Settles O24: the range test, the count difference and the full table. -/
theorem droppedReportsMoveOnlyTheirCounts : Obligations.DroppedReportsMoveOnlyTheirCounts := by
  intro p identity count throttle code battery strength s
  refine ⟨fun takes bad => ?_, fun h r hears heard => exec_reportHandset_dropped hears heard, exec_reportHandset_full⟩
  obtain ⟨k, n, mem, e⟩ := exec_reportHandset_out_of_range (battery := battery) takes bad
  exact ⟨k, n, mem_reportRangePlaces.1 mem, e⟩

/-! ## The first report of an identity (R20, R22, R26, R27) -/

theorem State.freeRecord_eq {s : State} {h : HandsetId} (free : s.handsets.records[h] = none)
    (lowest : ∀ k : HandsetId, k < h → s.handsets.records[k] ≠ none) : s.freeRecord = some h :=
  firstIdx_eq_some.2 ⟨by rw [free]; rfl, fun k hk => Option.isNone_eq_false_iff.2 (Option.isSome_iff_ne_none.2 (lowest k hk))⟩

/-- A record just made has code 0 held and code 0 as its candidate, so its first report completes no edge. -/
theorem State.freshRecord_no_edge (s : State) (identity : Ident) (p : PortId) (code : Byte) :
    ¬ (s.freshRecord identity p).edge code := fun ⟨same, differ⟩ => differ same

/-- The record that a first report leaves. -/
theorem State.freshRecord_reported (s : State) (identity : Ident) (p : PortId) (count throttle code battery strength : Byte) :
    (s.freshRecord identity p).reported p count throttle code battery strength .acquiring s.now =
      Handset.mk identity .acquiring (count.setWidth 4) (throttle.setWidth 6) 0 (code.setWidth 4) p
        (battery.getLsbD 0) (strength.setWidth 4) (s.carOf identity) (s.marshalOf identity).isSome 0 0 s.now s.now := by
  rw [Handset.reported_still (identity := identity) p (s.freshRecord_no_edge identity p code)]
  rfl

/-- Settles O25: the fresh record takes the report, which makes neither a LIVE transition nor an edge. -/
theorem firstReportTakesTheLowestFreeRecord : Obligations.FirstReportTakesTheLowestFreeRecord := by
  intro p identity count throttle code battery strength h s takes inRange unknown free lowest
  refine ⟨s.carOf identity, (s.marshalOf identity).isSome, fun c found => State.carOf_spec found, State.carOf_eq_none.1,
    ?_, ?_⟩
  · cases found : s.marshalOf identity with
    | none => exact iff_of_false (fun e => by cases e) fun ⟨m, hm⟩ => State.marshalOf_eq_none.1 found m hm
    | some m => exact iff_of_true rfl ⟨m, State.marshalOf_spec found⟩
  · have absent : (s.taken p).handsetOf (reportOf identity count throttle code battery strength).identity = none :=
      State.handsetOf_eq_none.2 unknown
    have place : (s.taken p).freeRecord = some h := State.freeRecord_eq (s := s.taken p) free lowest
    have accepted := State.acceptReport_still (s := (s.taken p).putRecord h (some (s.freshRecord identity p)))
      (identity := identity) (count := count) (throttle := throttle) (battery := battery) (strength := strength) p
      ((State.putRecord_records ..).trans (if_pos rfl)) (s.freshRecord_no_edge identity p code) .acquiring
    rw [exec_reportHandset takes inRange]
    unfold State.filterReport State.firstReport
    simp only [absent, place]
    refine congrArg Host.Outcome.next (accepted.trans ?_)
    rw [State.putRecord_putRecord, State.handedOn_still battery fun ⟨_, e⟩ => LinkState.noConfusion e,
      State.taken_putRecord, State.taken_batteryNotice, State.taken_done]
    exact congrArg (fun q => State.answer (State.batteryNotice (s.putRecord h (some q)) p (s.freshRecord identity p)
      battery) p (.done [0])) (s.freshRecord_reported ..)

/-! ## Accepted reports without an acting edge (R24 to R28, R31, R34 to R36, R43) -/

/-- A code of a report in range, in its four bits. -/
theorem setWidth_code_toNat {code : Byte} (h : code.toNat ≤ 15) : (code.setWidth 4).toNat = code.toNat := by
  rw [BitVec.toNat_setWidth]
  omega

/-- OFF and the codes from 5 on act on nothing (Table 2-7). -/
theorem State.handEdge_idle (s : State) {r : Handset} {code : Byte} (held : r.heldCode = code.setWidth 4)
    (range : code.toNat ≤ 15) (idle : code = 0 ∨ 5 ≤ code.toNat) (station : PortId) (strength : BitVec 4) :
    s.handEdge r station strength = s := by
  have away : (code.setWidth 4).toNat = 0 ∨ 5 ≤ (code.setWidth 4).toNat := by
    rw [setWidth_code_toNat range]
    exact idle.imp_left fun e => by rw [e]; rfl
  have other : ∀ k : BitVec 4, 1 ≤ k.toNat → k.toNat ≤ 4 → r.heldCode ≠ k := by
    rintro k low high rfl
    rw [held] at low high
    omega
  unfold State.handEdge laneCodeOf
  rw [if_neg (other 4 (by decide) (by decide)), if_neg (other 1 (by decide) (by decide)),
    if_neg (other 2 (by decide) (by decide)), if_neg (other 3 (by decide) (by decide))]

section
variable {p : PortId} {identity : Ident} {count throttle code battery strength : Byte} {h : HandsetId} {r : Handset}
  {s : State}

theorem Handset.reported_heldCode (edge : r.edge code) (link : LinkState) (now : Time) :
    (r.reported p count throttle code battery strength link now).heldCode = code.setWidth 4 := if_pos edge.1

theorem exec_reportHandset_idle (hears : s.hears p h r identity count throttle code strength) (accepts : r.accepts count)
    (idle : ¬ r.edge code ∨ code = 0 ∨ 5 ≤ code.toNat) :
    exec (.reportHandset p identity count throttle code battery strength) s =
      .next ((s.accepted p h r count throttle code battery strength).answer p (.done [0])) := by
  by_cases edge : r.edge code
  · rw [exec_reportHandset_accepted hears accepts]
    obtain ⟨-, ⟨-, -, -, -, range, -⟩, -, hr, -⟩ := hears
    rw [State.acceptReport_edge p (s := s.taken p) hr edge, ← State.accepted_eq,
      State.handEdge_idle _ (Handset.reported_heldCode edge ..) range (idle.resolve_left (not_not_intro edge)),
      State.taken_accepted, State.taken_done]
  · exact exec_reportHandset_still hears accepts edge

end

/-- Settles O26: such a report is accepted, and hands on no LIVE transition. -/
theorem acceptedReportWritesItsRecord : Obligations.AcceptedReportWritesItsRecord := by
  intro p identity count throttle code battery strength h r link s hears moves idle
  have kept : r.accepts count ∧ r.linkAfter count = link ∧ ¬ (r.link ≠ .live ∧ link = .live) := by
    unfold Handset.accepts Handset.linkAfter
    obtain ⟨e, low, high, rfl⟩ | ⟨e, low, high, rfl⟩ | ⟨e | e, rfl⟩ := moves
    · have later : r.difference count ≠ 1 := by omega
      have positive : 1 ≤ r.difference count := by omega
      simp [e, later, positive, high]
    · simp [e, low, high]
    · simp [e]
    · simp [e]
  obtain ⟨accepts, after, no_transition⟩ := kept
  rw [exec_reportHandset_idle hears accepts idle, State.accepted_eq, after, State.handedOn_still battery no_transition]

/-! ### The count that makes a handset LIVE -/

section
variable {s : State} {r : Handset} (p : PortId)

theorem State.wentLive_forsaken (unbound : r.boundCar = none) (unlisted : r.marshal = false) : s.wentLive p r = s := by
  unfold State.wentLive
  rw [unbound]
  simp only [unlisted]
  split <;> rfl

theorem State.wentLive_marshal (unbound : r.boundCar = none) (listed : r.marshal = true) {m : MarshalId}
    (found : s.marshalOf r.identity = some m) :
    s.wentLive p r = s.offerWithRaceControl p (.handsetState r.identity .live (.marshal m)) := by
  unfold State.wentLive
  rw [unbound]
  simp only [found, listed, if_true]

theorem State.wentLive_car {c : CarId} (bound : r.boundCar = some c) {a : Held}
    (ha : s.binding.bindings[c].held = some a) :
    s.wentLive p r =
      (if a.state = .bound then s
        else (s.putBinding c { s.binding.bindings[c] with
          held := some { a with state := .bound }, revision := s.binding.bindings[c].revision + 1,
          mark := .dirty }).offerRaceControl (.binding c (some { a with state := .bound })
            (s.binding.bindings[c].revision + 1))).offerWithRaceControl p (.handsetState r.identity .live (.car c)) := by
  unfold State.wentLive
  rw [bound]
  simp only [ha]

end

/-- Settles O27, by who holds the record. -/
theorem nextCountMakesTheHandsetLive : Obligations.NextCountMakesTheHandsetLive := by
  intro p identity count throttle code battery strength h r s hears acquiring next idle
  have accepts : r.accepts count := fun _ => by omega
  have after : r.linkAfter count = .live := if_pos (.inr ⟨acquiring, next⟩)
  have transition : r.link ≠ .live ∧ LinkState.live = .live := ⟨by rw [acquiring]; exact LinkState.noConfusion, rfl⟩
  have ⟨_, _, _, _, holds⟩ := hears
  simp only
  rw [exec_reportHandset_idle hears accepts idle, State.accepted_eq, after, State.handedOn_live battery transition]
  generalize r.reported p count throttle code battery strength .live s.now = q
  refine ⟨fun unbound unlisted => ?_, fun m unbound listed found => ?_, fun c a bound ha st => ?_,
    fun c a bound ha st => ?_⟩
  · rw [State.wentLive_forsaken p unbound unlisted]
  · rw [State.wentLive_marshal (s := s.putRecord h (some q)) p unbound listed (holds.symm ▸ found), holds]
  · rw [State.wentLive_car (s := s.putRecord h (some q)) p bound ha, if_pos st, holds]
  · rw [State.wentLive_car (s := s.putRecord h (some q)) p bound ha, if_neg st, holds]
    rfl

end Sys2Proof.Machine
end

section
/-! Code edges of accepted reports: where each goes, and what lane edges and marshal edges do (R26, R36, R37, R83, R121,
Tables 2-7 and 6-4). -/

namespace Sys2Proof.Machine

-- One after the other, the proofs need no thread each.
set_option Elab.async false

/-! ## Taking a request commutes with a code edge -/

section
variable (s : State) (p : PortId)

theorem State.taken_freeIfForsaken (h : HandsetId) : (s.taken p).freeIfForsaken h = (s.freeIfForsaken h).taken p := by
  unfold State.freeIfForsaken
  simp only [State.taken_fields]
  split <;> rfl

theorem State.taken_editRecord (i : Ident) (f : Handset → Handset) :
    (s.taken p).editRecord i f = (s.editRecord i f).taken p := by
  unfold State.editRecord
  change (match s.handsetOf i with | some h => _ | none => _) = _
  cases s.handsetOf i with
  | none => rfl
  | some h => exact State.taken_freeIfForsaken (s.modHandset h f) p h

theorem State.taken_carryIdentity (c : CarId) (old new : Option Ident) :
    (s.taken p).carryIdentity c old new = (s.carryIdentity c old new).taken p := by
  unfold State.carryIdentity
  by_cases same : old = new
  · rw [if_pos same, if_pos same]
  · rw [if_neg same, if_neg same]
    cases old <;> cases new <;>
      simp only [Option.elim_none, Option.elim_some, State.unbindHandset_eq, State.bindHandset_eq,
        State.taken_editRecord] <;> rfl

theorem State.taken_rebind (c : CarId) (held : Option Held) (f : Binding → Binding) :
    (s.taken p).rebind c held f = (s.rebind c held f).taken p := by
  simp only [State.rebind, State.taken_fields, State.taken_carryIdentity, State.taken_changeBinding]

theorem State.taken_vacated (i : Ident) : (s.taken p).vacated i = (s.vacated i).taken p := by
  unfold State.vacated
  change (s.carOf i).elim _ _ = _
  cases s.carOf i with
  | none => rfl
  | some old => exact s.taken_rebind ..

/-- The holding that a pairing gives the offered car (R54). -/
def State.pairedHeld (i : Ident) : Held := Held.mk i .paired ((s.vacated i).heldStateFor i)

theorem State.pairWith_eq (i : Ident) (o : Offer) :
    s.pairWith i o = ((s.vacated i).rebind o.car (some (s.pairedHeld i)) id).modOffers (·.filter (·.car != o.car)) := rfl

theorem State.taken_pairWith (i : Ident) (o : Offer) : (s.taken p).pairWith i o = (s.pairWith i o).taken p := by
  have held : (s.taken p).pairedHeld i = s.pairedHeld i := by
    unfold State.pairedHeld
    rw [State.taken_vacated]
    rfl
  rw [State.pairWith_eq, State.pairWith_eq, held, State.taken_vacated, State.taken_rebind]
  rfl

theorem State.taken_announcePair (station : PortId) (i : Ident) (result : PairResult) (c : Option CarId) :
    (s.taken p).announcePair station i result c = (s.announcePair station i result c).taken p :=
  s.taken_offerWithRaceControl ..

theorem State.taken_modOffers (f : List Offer → List Offer) : (s.taken p).modOffers f = (s.modOffers f).taken p := rfl

theorem State.taken_ite (c : Prop) [Decidable c] (t u : State) :
    (if c then t else u).taken p = if c then t.taken p else u.taken p := apply_ite (State.taken · p) c t u

theorem State.taken_pairEdge (i : Ident) (marshal : Bool) (station : PortId) (strength : BitVec 4) :
    (s.taken p).pairEdge i marshal station strength = (s.pairEdge i marshal station strength).taken p := by
  have nearest : (s.taken p).matchingOffer station = s.matchingOffer station := rfl
  unfold State.pairEdge
  rw [nearest]
  cases s.matchingOffer station <;>
    simp only [State.taken_ite, State.taken_fields, State.taken_announcePair, State.taken_modOffers, State.taken_pairWith]

theorem State.taken_changeCourse (new : Course) (lamps : Nat) (next : Option Time) (cause : CourseCause) :
    (s.taken p).changeCourse new lamps next cause = (s.changeCourse new lamps next cause).taken p :=
  State.taken_offerAll
    { s with course := { s.course with course := new, lampCount := lamps, nextLamp := next } } p _

theorem State.taken_marshalEdge (i : Ident) (live : Bool) (code : LaneCode) (station : PortId) :
    (s.taken p).marshalEdge i live code station = (s.marshalEdge i live code station).taken p := by
  unfold State.marshalEdge
  simp only [State.taken_fields]
  split
  · exact s.taken_offerWithRaceControl ..
  · unfold State.toCaution State.toStop
    split <;> simp only [State.taken_fields, State.taken_changeCourse, State.taken_offerWithRaceControl]

theorem State.taken_laneEdge (i : Ident) (code : LaneCode) : (s.taken p).laneEdge i code = (s.laneEdge i code).taken p := by
  unfold State.laneEdge
  change (match s.carOf i with | some c => _ | none => _) = _
  cases s.carOf i with
  | none => rfl
  | some c =>
    simp only [State.taken_fields]
    split <;> rfl

theorem State.taken_handEdge (r : Handset) (station : PortId) (strength : BitVec 4) :
    (s.taken p).handEdge r station strength = (s.handEdge r station strength).taken p := by
  unfold State.handEdge
  split
  · exact s.taken_pairEdge ..
  · cases laneCodeOf r.heldCode with
    | none => rfl
    | some code =>
      simp only
      split
      · exact s.taken_marshalEdge ..
      · exact s.taken_laneEdge ..

end

/-! ## The state that a code edge acts on -/

section
variable {p : PortId} {identity : Ident} {count throttle code battery strength : Byte} {h : HandsetId} {r : Handset}
  {s : State}

/-- The record of an accepted report: its new link state and codes, with its owner's identity. -/
def Handset.after (r : Handset) (p : PortId) (count throttle code battery strength : Byte) (now : Time) : Handset :=
  r.reported p count throttle code battery strength (r.linkAfter count) now

/-- An accepted report that completes an edge: the edge acts on what the report leaves. -/
theorem exec_reportHandset_edge (hears : s.hears p h r identity count throttle code strength) (accepts : r.accepts count)
    (edge : r.edge code) :
    exec (.reportHandset p identity count throttle code battery strength) s =
      .next (((s.accepted p h r count throttle code battery strength).handEdge
        (r.after p count throttle code battery strength s.now) p (strength.setWidth 4)).answer p (.done [0])) := by
  rw [exec_reportHandset_accepted hears accepts]
  obtain ⟨-, -, -, hr, -⟩ := hears
  rw [State.acceptReport_edge p (s := s.taken p) hr edge, ← State.accepted_eq, State.taken_accepted,
    State.taken_handEdge, State.taken_done]
  rfl

variable (s p h r count throttle code battery strength) in
@[simp] theorem State.accepted_fields :
    (s.accepted p h r count throttle code battery strength).seq = s.seq ∧
    (s.accepted p h r count throttle code battery strength).geo = s.geo ∧
    (s.accepted p h r count throttle code battery strength).handsets =
      (s.putRecord h (some (r.after p count throttle code battery strength s.now))).handsets ∧
    (s.accepted p h r count throttle code battery strength).binding.marshals = s.binding.marshals ∧
    (s.accepted p h r count throttle code battery strength).binding.window = s.binding.window ∧
    (s.accepted p h r count throttle code battery strength).binding.offers = s.binding.offers ∧
    (s.accepted p h r count throttle code battery strength).tracker = s.tracker ∧
    (s.accepted p h r count throttle code battery strength).lane = s.lane ∧
    (s.accepted p h r count throttle code battery strength).course = s.course ∧
    (s.accepted p h r count throttle code battery strength).store = s.store ∧
    (s.accepted p h r count throttle code battery strength).rcs = s.rcs ∧
    (s.accepted p h r count throttle code battery strength).freeCount = s.freeCount ∧
    (s.accepted p h r count throttle code battery strength).pending = s.pending := by
  rw [State.accepted_eq]
  simp [Handset.after]

theorem Handset.linkAfter_ne_lost (r : Handset) (count : Byte) : r.linkAfter count ≠ .lost := by
  unfold Handset.linkAfter
  split <;> exact LinkState.noConfusion

/-- What an accepted report leaves before its edge keeps the identities. -/
theorem State.accepted_identitiesOk (ok : s.identitiesOk) (hr : s.handsets.records[h] = some r) :
    (s.accepted p h r count throttle code battery strength).identitiesOk := by
  have put : (s.putRecord h (some (r.after p count throttle code battery strength s.now))).identitiesOk :=
    State.rewriteRecord_alive_identitiesOk ok hr (alive := fun dead => absurd dead (r.linkAfter_ne_lost count))
  rw [State.accepted_eq]
  unfold State.handedOn
  refine (State.batteryNotice_portsOnly ..).leavesIdentities.identitiesOk ?_
  split
  · next transition =>
    have live : (r.after p count throttle code battery strength s.now).link = .live := transition.2
    have went := State.handLive_identitiesOk put ((State.putRecord_records ..).trans (if_pos rfl))
      (by rw [live]; exact LinkState.noConfusion)
    rw [State.handLive_eq _ p _ live rfl] at went
    exact went
  · exact put

/-! ## Lane edges (R36, R37, R83) -/

/-- A lane code goes to the Course Controller from a marshal, to the Lane Arbiter from anyone else (Table 2-7). -/
theorem State.handEdge_lane (s : State) {lane : LaneCode} (held : r.heldCode = code.setWidth 4)
    (code_lane : code = 1 ∧ lane = .shiftIn ∨ code = 2 ∧ lane = .shiftOut ∨ code = 3 ∧ lane = .pit) (station : PortId)
    (strength : BitVec 4) :
    s.handEdge r station strength =
      if r.marshal then s.marshalEdge r.identity (r.link == .live) lane station else s.laneEdge r.identity lane := by
  unfold State.handEdge
  rw [held]
  obtain ⟨rfl, rfl⟩ | ⟨rfl, rfl⟩ | ⟨rfl, rfl⟩ := code_lane <;> rfl

theorem State.laneEdge_bound {s : State} (ok : s.identitiesOk) {c : CarId} {a : Held}
    (ha : s.binding.bindings[c].held = some a) (bound : a.state = .bound) (lane : LaneCode) :
    s.laneEdge a.identity lane =
      s.putIntent c (some (Intent.mk lane (s.now + s.course.settings.intentLife.setWidth 32))) := by
  unfold State.laneEdge
  rw [State.carOf_of_unique ok ha]
  simp only [ha, Option.any_some, bound, beq_self_eq_true, if_true, addMs_toNat]
  rfl

theorem State.laneEdge_unbound {s : State} {i : Ident}
    (unbound : ∀ (c : CarId) (a : Held), s.binding.bindings[c].held = some a → a.identity = i → a.state ≠ .bound)
    (lane : LaneCode) : s.laneEdge i lane = s := by
  unfold State.laneEdge
  split
  · next c found =>
    obtain ⟨a, ha, hi⟩ := State.carOf_spec found
    rw [ha]
    exact if_neg fun e => unbound c a ha hi (eq_of_beq e)
  · rfl

end

/-- Settles O28: the edge acts on what the report leaves, where the identities are still unique. -/
theorem laneEdgeSetsTheIntent : Obligations.LaneEdgeSetsTheIntent := by
  intro p identity count throttle code battery strength h r lane s hears accepts driver edge code_lane
  have ⟨_, _, _, hr, holds⟩ := hears
  have held : (r.after p count throttle code battery strength s.now).heldCode = code.setWidth 4 :=
    Handset.reported_heldCode edge ..
  have unlisted : ¬ (r.after p count throttle code battery strength s.now).marshal = true := ne_true_of_eq_false driver
  have same : (r.after p count throttle code battery strength s.now).identity = identity := holds
  simp only
  rw [exec_reportHandset_edge hears accepts edge, State.handEdge_lane _ held code_lane, if_neg unlisted, same]
  refine ⟨fun c a ok ha hi bound => ?_, fun unbound => ?_⟩
  · rw [← hi, State.laneEdge_bound (State.accepted_identitiesOk ok hr) ha bound]
    simp only [State.now, State.accepted_fields]
  · rw [State.laneEdge_unbound unbound]

/-! ## Marshal edges (Table 6-4) -/

section
variable (s : State) (i : Ident) (lane : LaneCode) (station : PortId)

theorem State.marshalEdge_notLive :
    s.marshalEdge i false lane station = s.offerWithRaceControl station (.marshalAction i lane .notLive) := rfl

theorem State.marshalEdge_caution (green : s.course.course = .green) :
    s.marshalEdge i true .shiftIn station =
      ((s.putCourse .caution s.course.lampCount s.course.nextLamp).offerAll
        (.course .caution .green s.course.lampCount (.marshal i))).offerWithRaceControl station
          (.marshalAction i .shiftIn .applied) := by
  unfold State.marshalEdge
  rw [green]
  simp only [State.toCaution, State.changeCourse, State.putCourse, green]
  rfl

theorem State.marshalEdge_stop (racing : s.course.course ≠ .stop) :
    s.marshalEdge i true .pit station =
      ((s.putCourse .stop 0 none).offerAll (.course .stop s.course.course 0 (.marshal i))).offerWithRaceControl station
        (.marshalAction i .pit .applied) := by
  unfold State.marshalEdge State.toStop State.changeCourse State.putCourse
  cases course : s.course.course with
  | stop => exact absurd course racing
  | countdown | green | caution => rfl

theorem State.marshalEdge_noEffect
    (idle : lane = .shiftOut ∨ lane = .shiftIn ∧ s.course.course ≠ .green ∨ lane = .pit ∧ s.course.course = .stop) :
    s.marshalEdge i true lane station = s.offerWithRaceControl station (.marshalAction i lane .noEffect) := by
  unfold State.marshalEdge
  obtain rfl | ⟨rfl, away⟩ | ⟨rfl, stop⟩ := idle
  · rfl
  · cases course : s.course.course with
    | green => exact absurd course away
    | stop | countdown | caution => rfl
  · rw [stop]
    rfl

end

/-- Settles O29, by the link state that the report leaves and then by Table 6-4. -/
theorem marshalEdgeActsOnTheCourse : Obligations.MarshalEdgeActsOnTheCourse := by
  intro p identity count throttle code battery strength h r lane s hears accepts marshal edge code_lane
  have ⟨_, _, _, _, holds⟩ := hears
  have held : (r.after p count throttle code battery strength s.now).heldCode = code.setWidth 4 :=
    Handset.reported_heldCode edge ..
  have listed : (r.after p count throttle code battery strength s.now).marshal = true := marshal
  have same : (r.after p count throttle code battery strength s.now).identity = identity := holds
  have link : (r.after p count throttle code battery strength s.now).link = r.linkAfter count := rfl
  simp only
  rw [exec_reportHandset_edge hears accepts edge, State.handEdge_lane _ held code_lane, if_pos listed, same, link]
  refine ⟨fun away => ?_, fun live e green => ?_, fun live e racing => ?_, fun live idle => ?_⟩
  · rw [beq_false_of_ne away, State.marshalEdge_notLive]
  · subst e
    rw [live, beq_self_eq_true, State.marshalEdge_caution _ _ _ (by simpa using green)]
    simp only [State.accepted_fields]
  · subst e
    rw [live, beq_self_eq_true, State.marshalEdge_stop _ _ _ (by simpa using racing)]
    simp only [State.accepted_fields]
  · rw [live, beq_self_eq_true, State.marshalEdge_noEffect _ _ _ _ (by simpa using idle)]

end Sys2Proof.Machine
end

section
/-! PAIR edges (R51 to R55), and RELEASE (R59). -/

namespace Sys2Proof.Machine

-- One after the other, the proofs need no thread each.
set_option Elab.async false

/-! ## Offers (R49, R52) -/

section
variable {s : State} {before after : List Offer} {o : Offer}

/-- The offer nearest the head at a sensor of the station is the one that pairs. -/
theorem State.matchingOffer_eq {station : PortId} (list : s.binding.offers = before ++ o :: after)
    (passed : ∀ q ∈ before, s.geo.sensors[q.sensor].owner ≠ station) (owner : s.geo.sensors[o.sensor].owner = station) :
    s.matchingOffer station = some o := by
  unfold State.matchingOffer
  rw [list]
  exact List.find?_eq_some_iff_append.2
    ⟨beq_iff_eq.2 owner, before, after, rfl, fun q hq => by rw [beq_false_of_ne (passed q hq)]; rfl⟩

theorem State.matchingOffer_none {station : PortId}
    (passed : ∀ q ∈ s.binding.offers, s.geo.sensors[q.sensor].owner ≠ station) : s.matchingOffer station = none :=
  List.find?_eq_none.2 fun q hq e => passed q hq (eq_of_beq e)

/-- No other offer is the car's, so taking away the car's offers takes away the one. -/
theorem filter_other_cars (nodup : ((before ++ o :: after).map (·.car)).Nodup) :
    (before ++ o :: after).filter (·.car != o.car) = before ++ after := by
  rw [List.map_append, List.map_cons, List.nodup_append] at nodup
  obtain ⟨-, later, apart⟩ := nodup
  have differs : ∀ q ∈ before ++ after, (q.car != o.car) = true := fun q hq => bne_iff_ne.2 fun e => by
    obtain hq | hq := List.mem_append.1 hq
    · exact apart _ (List.mem_map_of_mem hq) _ List.mem_cons_self e
    · exact (List.nodup_cons.1 later).1 (e ▸ List.mem_map_of_mem hq)
  rw [List.filter_append, List.filter_cons_of_neg (by simp), ← List.filter_append, List.filter_eq_self]
  exact differs

theorem State.consume_offer (ok : s.lampsAndOffersOk) (list : s.binding.offers = before ++ o :: after) :
    s.modOffers (·.filter (·.car != o.car)) = s.putOffers (before ++ after) := by
  obtain ⟨-, -, -, nodup, -⟩ := ok
  rw [list] at nodup
  unfold State.modOffers State.putOffers
  rw [list]
  simp only [filter_other_cars nodup]

end

/-! ## The outcomes of a PAIR edge, in the order of its tests (R51 to R54) -/

section
variable {s : State} {i : Ident} {station : PortId} {strength : BitVec 4}

theorem State.pairEdge_closed (marshal : Bool) (closed : s.binding.window = none) :
    s.pairEdge i marshal station strength = s.announcePair station i .closed none := by
  unfold State.pairEdge
  rw [closed]
  rfl

section
variable (opened : s.binding.window ≠ none)
include opened

theorem State.pairEdge_marshal : s.pairEdge i true station strength = s := by
  unfold State.pairEdge
  rw [if_neg (Option.isNone_iff_eq_none.not.2 opened), if_pos rfl]

theorem State.pairEdge_weak (weak : strength.toNat < s.course.settings.pairingFloor.toNat) :
    s.pairEdge i false station strength = s.announcePair station i .weak none := by
  unfold State.pairEdge
  rw [if_neg (Option.isNone_iff_eq_none.not.2 opened), if_neg Bool.false_ne_true, if_pos weak]

variable (strong : s.course.settings.pairingFloor.toNat ≤ strength.toNat)
include strong

theorem State.pairEdge_noCar (none_near : s.matchingOffer station = none) :
    s.pairEdge i false station strength = s.announcePair station i .noCar none := by
  unfold State.pairEdge
  rw [if_neg (Option.isNone_iff_eq_none.not.2 opened), if_neg Bool.false_ne_true, if_neg (Nat.not_lt.2 strong), none_near]

variable {o : Offer} (near : s.matchingOffer station = some o)
include near

theorem State.pairEdge_same (holds : s.binding.bindings[o.car].held.map (·.identity) = some i) :
    s.pairEdge i false station strength =
      (s.modOffers (·.filter (·.car != o.car))).announcePair station i .same (some o.car) := by
  obtain ⟨a, ha, rfl⟩ := Option.map_eq_some_iff.1 holds
  unfold State.pairEdge
  rw [if_neg (Option.isNone_iff_eq_none.not.2 opened), if_neg Bool.false_ne_true, if_neg (Nat.not_lt.2 strong), near]
  simp only [ha, Option.any_some, beq_self_eq_true, if_true]

theorem State.pairEdge_ok (other : s.binding.bindings[o.car].held.map (·.identity) ≠ some i) :
    s.pairEdge i false station strength = (s.pairWith i o).announcePair station i .ok (some o.car) := by
  have differs : ¬ (s.binding.bindings[o.car].held).any (·.identity == i) = true := fun e => by
    obtain ⟨a, ha, hi⟩ := (Option.any_eq_true _ _).1 e
    exact other (Option.map_eq_some_iff.2 ⟨a, ha, eq_of_beq hi⟩)
  unfold State.pairEdge
  rw [if_neg (Option.isNone_iff_eq_none.not.2 opened), if_neg Bool.false_ne_true, if_neg (Nat.not_lt.2 strong), near]
  exact if_neg differs

end
end

/-! ## What a PAIR edge reads of the state that its report leaves -/

section
variable {p : PortId} {identity : Ident} {count throttle code battery strength : Byte} {h : HandsetId} {r : Handset}
  {s : State}

/-- A move into LIVE touches the binding of the record's car alone, and keeps its identity. -/
theorem State.handLive_bindings (s : State) {r : Handset} {k : CarId} (other : r.boundCar ≠ some k) :
    (s.handLive r).binding.bindings[k] = s.binding.bindings[k] := by
  unfold State.handLive
  simp only [State.announceLink_fields]
  cases bound : r.boundCar with
  | none => rfl
  | some c =>
    have differ : k ≠ c := fun e => other (bound.trans (congrArg some e.symm))
    rw [Option.elim_some]
    obtain ⟨_, -, -, e⟩ | ⟨-, e⟩ := s.moveBinding_cases c (· != .bound) .bound <;> rw [e]
    rw [State.changeBinding_bindings, if_neg differ]

theorem State.moveBinding_identity (s : State) (c : CarId) (source : HeldState → Bool) (target : HeldState) (k : CarId) :
    (s.moveBinding c source target).binding.bindings[k].held.map (·.identity) =
      s.binding.bindings[k].held.map (·.identity) := by
  obtain ⟨a, ha, -, e⟩ | ⟨-, e⟩ := s.moveBinding_cases c source target <;> rw [e]
  rw [State.changeBinding_bindings]
  split
  · next same =>
    subst same
    rw [ha]
    rfl
  · rfl

theorem State.handLive_identity (s : State) (r : Handset) (k : CarId) :
    (s.handLive r).binding.bindings[k].held.map (·.identity) = s.binding.bindings[k].held.map (·.identity) := by
  unfold State.handLive
  simp only [State.announceLink_fields]
  cases r.boundCar with
  | none => rfl
  | some c =>
    rw [Option.elim_some]
    exact s.moveBinding_identity ..

theorem State.accepted_bindings {k : CarId} (other : r.boundCar ≠ some k) :
    (s.accepted p h r count throttle code battery strength).binding.bindings[k] = s.binding.bindings[k] := by
  rw [State.accepted_eq]
  unfold State.handedOn
  simp only [State.batteryNotice_fields]
  split
  · rw [State.wentLive_eq, State.handLive_bindings _ (show (r.gone p).boundCar ≠ some k from other)]
    rfl
  · rfl

theorem State.accepted_identity (k : CarId) :
    (s.accepted p h r count throttle code battery strength).binding.bindings[k].held.map (·.identity) =
      s.binding.bindings[k].held.map (·.identity) := by
  rw [State.accepted_eq]
  unfold State.handedOn
  simp only [State.batteryNotice_fields]
  split
  · rw [State.wentLive_eq, State.handLive_identity]
    rfl
  · rfl

theorem State.handEdge_pair (s : State) {r : Handset} (held : r.heldCode = (4 : Byte).setWidth 4) (station : PortId)
    (strength : BitVec 4) : s.handEdge r station strength = s.pairEdge r.identity r.marshal station strength := if_pos held

/-- The offers as an accepted report leaves them. -/
theorem State.accepted_matchingOffer (station : PortId) :
    (s.accepted p h r count throttle code battery strength).matchingOffer station = s.matchingOffer station := by
  unfold State.matchingOffer
  simp only [State.accepted_fields]

theorem State.accepted_lampsAndOffersOk (ok : s.lampsAndOffersOk) :
    (s.accepted p h r count throttle code battery strength).lampsAndOffersOk := State.lampsAndOffersOk_of_eq ok

/-- A PAIR edge acts on what its report leaves. -/
theorem exec_reportHandset_pair (hears : s.hears p h r identity count throttle 4 strength) (accepts : r.accepts count)
    (edge : r.edge 4) :
    exec (.reportHandset p identity count throttle 4 battery strength) s =
      .next (((s.accepted p h r count throttle 4 battery strength).pairEdge identity r.marshal p
        (strength.setWidth 4)).answer p (.done [0])) := by
  have held : (r.after p count throttle 4 battery strength s.now).heldCode = (4 : Byte).setWidth 4 :=
    Handset.reported_heldCode edge ..
  rw [exec_reportHandset_edge hears accepts edge, State.handEdge_pair _ held]
  obtain ⟨-, -, -, -, rfl⟩ := hears
  rfl

end

/-- Settles O30, test by test of R51 and R53. -/
theorem pairEdgeThatPairsNothing : Obligations.PairEdgeThatPairsNothing := by
  intro p identity count throttle battery strength h r s hears accepts edge
  have ⟨_, ⟨_, _, _, _, _, range⟩, _⟩ := hears
  have strength_kept : (strength.setWidth 4).toNat = strength.toNat := setWidth_code_toNat range
  have near_kept (station : PortId) :
      (s.accepted p h r count throttle 4 battery strength).matchingOffer station = s.matchingOffer station :=
    State.accepted_matchingOffer station
  simp only
  rw [exec_reportHandset_pair hears accepts edge]
  refine ⟨fun closed => ?_, fun opened marshal => ?_, fun opened driver weak => ?_,
    fun opened driver strong passed => ?_, fun before after o a opened driver strong list passed owner ok ha hi => ?_⟩
  · rw [State.pairEdge_closed _ (by simpa using closed)]
    rfl
  · rw [marshal, State.pairEdge_marshal (by simpa using opened)]
  · rw [driver, State.pairEdge_weak (by simpa using opened) (by simpa [strength_kept] using weak)]
    rfl
  · have none_near := (near_kept p).trans (State.matchingOffer_none passed)
    rw [driver, State.pairEdge_noCar (by simpa using opened) (by simpa [strength_kept] using strong) none_near]
    rfl
  · have near := (near_kept p).trans (State.matchingOffer_eq list passed owner)
    rw [driver, State.pairEdge_same (by simpa using opened) (by simpa [strength_kept] using strong) near
      (by rw [State.accepted_identity, ha, ← hi]; rfl),
      State.consume_offer (State.accepted_lampsAndOffersOk ok) (by simpa using list)]
    rfl

/-! ## A rebinding in its ports and intents -/

/-- An offer to race control reads the ports and the time alone. -/
theorem State.offerRaceControl_ports_congr {s t : State} (ports : s.ports = t.ports) (seq : s.seq = t.seq)
    (body : NoticeBody) : (s.offerRaceControl body).ports = (t.offerRaceControl body).ports := by
  unfold State.offerRaceControl State.offerWhere State.hasRights State.now
  rw [ports, seq]

theorem State.offerWithRaceControl_ports_congr {s t : State} (ports : s.ports = t.ports) (seq : s.seq = t.seq)
    (p : PortId) (body : NoticeBody) :
    (s.offerWithRaceControl p body).ports = (t.offerWithRaceControl p body).ports := by
  unfold State.offerWithRaceControl State.offerWhere State.hasRights State.now
  rw [ports, seq]

theorem State.answer_ports_congr {s t : State} (ports : s.ports = t.ports) (p : PortId) (r : Reply) :
    (s.answer p r).ports = (t.answer p r).ports := by
  unfold State.answer
  rw [ports]

/-- A rebinding is told to race control as one change (R42). -/
theorem State.rebind_ports (s : State) (c : CarId) (held : Option Held) (f : Binding → Binding) :
    (s.rebind c held f).ports =
      (s.offerRaceControl (.binding c held (s.binding.bindings[c].revision + 1))).ports := by
  unfold State.rebind
  rw [State.changeBinding_ports]
  simp only [State.carryIdentity_fields]
  exact State.offerRaceControl_ports_congr (by simp) (by simp) _

/-- Of the bindings, a rebinding changes the records alone. -/
theorem State.rebind_block (s : State) (c : CarId) (held : Option Held) (f : Binding → Binding) :
    (s.rebind c held f).binding = { s.binding with bindings := (s.rebind c held f).binding.bindings } := by
  simp only [State.rebind, State.changeBinding_fields, State.carryIdentity_fields]

theorem State.rebind_caps (s : State) (c : CarId) (held : Option Held) (f : Binding → Binding) :
    (s.rebind c held f).lane = { s.lane with intents := (s.rebind c held f).lane.intents } := by
  rw [State.rebind_intents]
  exact State.carryIdentity_caps ..

/-- A changed identity takes the car's intent, and no other's (R84). -/
theorem State.rebind_intent {s : State} {c : CarId} {held : Option Held}
    (differ : s.binding.bindings[c].held.map (·.identity) ≠ held.map (·.identity)) (f : Binding → Binding) (k : CarId) :
    (s.rebind c held f).lane.intents[k] = if k = c then none else s.lane.intents[k] := by
  rw [State.rebind_intents, State.carryIdentity_lane s c differ]
  exact modAt_get s.lane.intents c k _

/-! ## RELEASE (R59) -/

theorem exec_release {p : PortId} {n : Byte} {s : State} (takes : s.takes p) (rights : (s.ports[p]).raceControl = true) :
    exec (.release p n) s = .next (match numOf 16 n with
      | none => (s.taken p).refuse p (.range 1)
      | some c =>
        (if s.binding.bindings[c].held.isSome then (s.taken p).rebind c none id else s.taken p).done p []) := by
  change Host.Outcome.next (s.request p (·.reqRelease p n)) = _
  unfold State.reqRelease
  rw [State.request_reserved _ takes rights]
  cases numOf 16 n <;> rfl

/-- Settles O34: the car number's test, a VACANT car, and a car that gives up its identity. -/
theorem releaseMakesTheCarVacant : Obligations.ReleaseMakesTheCarVacant := by
  intro p n s takes rights
  rw [exec_release takes rights]
  refine ⟨fun outside => ?_, ?_⟩
  · rw [numOf_eq_none.2 outside]
    exact congrArg Host.Outcome.next (State.taken_refuse ..)
  · rintro c rfl
    rw [show numOf 16 (BitVec.ofNat 8 (c.val + 1)) = some c from numOf_numByte (by decide) c]
    simp only
    refine ⟨fun vacant => ?_, fun a ok ha => ?_⟩
    · rw [vacant]
      exact congrArg Host.Outcome.next (State.taken_done ..)
    · rw [ha, if_pos (show (some a).isSome = true from rfl), State.taken_rebind, State.taken_done]
      have bindings : (s.rebind c none id).binding.bindings =
          modAt s.binding.bindings c fun _ => { s.binding.bindings[c] with
            held := none, revision := s.binding.bindings[c].revision + 1, mark := .dirty } := bank_ext fun k => by
        rw [State.rebind_bindings, modAt_get]
        split
        · next same => rw [same]; rfl
        · rfl
      have follow := State.rebind_neighboursFollow ok.recordsUnique c none id
      rw [ha] at follow
      refine ⟨_, rfl, follow, ?_, ?_⟩
      · change (s.rebind c none id).binding = _
        rw [State.rebind_block, bindings]
        rfl
      · exact State.ext_blocks (lane := by simpa using s.rebind_caps c none id)
          (ports := by
            simp only
            exact State.answer_ports_congr (s.rebind_ports c none id) ..)

end Sys2Proof.Machine
end

section
/-! The expiries of a handset record (R29 to R33, R35, R44). -/

namespace Sys2Proof.Machine

-- One after the other, the proofs need no thread each.
set_option Elab.async false

/-! ## The notice of a record's move, by its holder (R35) -/

section
variable (s : State) {r : Handset}

theorem State.announceLink_unheld (unbound : r.boundCar = none) (driver : r.marshal = false) : s.announceLink r = s := by
  unfold State.announceLink State.holderOf
  rw [unbound, driver]
  rfl

theorem State.announceLink_car {c : CarId} (bound : r.boundCar = some c) :
    s.announceLink r = s.offerWithRaceControl r.heardStation (.handsetState r.identity r.link (.car c)) := by
  unfold State.announceLink State.holderOf
  rw [bound]
  rfl

theorem State.announceLink_marshal {m : MarshalId} (unbound : r.boundCar = none) (marshal : r.marshal = true)
    (listed : s.marshalOf r.identity = some m) :
    s.announceLink r = s.offerWithRaceControl r.heardStation (.handsetState r.identity r.link (.marshal m)) := by
  unfold State.announceLink State.holderOf
  rw [unbound, marshal, if_pos rfl, listed]
  rfl

/-! ## A record's move into LOST (R44) -/

theorem State.handLost_unbound (unbound : r.boundCar = none) : s.handLost r = s.announceLink r := by
  unfold State.handLost
  rw [unbound]
  rfl

variable {c : CarId} {a : Held} (bound : r.boundCar = some c) (held : s.binding.bindings[c].held = some a)
include bound held

/-- A car that is not BOUND stays as it is. -/
theorem State.handLost_reserved (notBound : a.state ≠ .bound) : s.handLost r = s.announceLink r := by
  unfold State.handLost
  rw [bound, Option.elim_some, State.moveBinding, held]
  exact congrArg (State.announceLink · r) (if_neg (mt eq_of_beq notBound))

/-- A BOUND car becomes SUSPENDED. -/
theorem State.handLost_bound (isBound : a.state = .bound) :
    s.handLost r =
      ((s.putBinding c { s.binding.bindings[c] with
        held := some { a with state := .suspended }, revision := s.binding.bindings[c].revision + 1,
        mark := .dirty }).offerRaceControl (.binding c (some { a with state := .suspended })
          (s.binding.bindings[c].revision + 1))).announceLink r := by
  have moved : s.moveBinding c (· == .bound) .suspended =
      s.changeBinding c fun b => { b with held := some { a with state := .suspended } } := by
    unfold State.moveBinding
    rw [held]
    exact if_pos (beq_iff_eq.2 isBound)
  unfold State.handLost
  rw [bound, Option.elim_some, moved, State.changeBinding_eq]

end

/-! ## The two expiries, due -/

section
variable {s : State} {h : HandsetId} {r : Handset} (record : s.handsets.records[h] = some r)
include record

theorem execStaleExpiry_due (link : r.link = .acquiring ∨ r.link = .live)
    (due : (s.now - (r.reportStamp + 60)).toNat < 2 ^ 31) :
    exec (.staleExpiry h) s =
      (let stale := { r with link := .stale, heldCode := 0, candidateCode := 0, stateStamp := s.now }
       .next ((s.putRecord h (some stale)).announceLink stale)) := by
  have runs : ((r.link == .acquiring || r.link == .live) && reached s.now (addMs r.reportStamp 60)) = true :=
    Bool.and_eq_true_iff.2 ⟨by simpa using link, reached_iff.2 due⟩
  change execStaleExpiry h s = _
  unfold execStaleExpiry
  rw [record]
  simp only
  rw [if_pos runs, State.modHandset_eq record]

/-- A record that becomes LOST. -/
def Handset.lostAt (r : Handset) (now : Time) : Handset := { r with link := .lost, stateStamp := now }

theorem execHandsetLostExpiry_due (link : r.link = .stale) (due : (s.now - (r.stateStamp + 3000)).toNat < 2 ^ 31) :
    exec (.handsetLostExpiry h) s =
      .next (((s.putRecord h (some (r.lostAt s.now))).handLost (r.lostAt s.now)).freeIfForsaken h) := by
  have runs : (r.link == .stale && reached s.now (addMs r.stateStamp 3000)) = true :=
    Bool.and_eq_true_iff.2 ⟨beq_iff_eq.2 link, reached_iff.2 due⟩
  change execHandsetLostExpiry h s = _
  unfold execHandsetLostExpiry
  rw [record]
  simp only
  rw [if_pos runs, State.modHandset_eq record]
  rfl

end

/-- A record in use by a car or a marshal entry is kept, whatever is told of it. -/
theorem State.freeIfForsaken_of_put {s t : State} {h : HandsetId} {r : Handset} (kept : r.kept = some r)
    (same : t.handsets = (s.putRecord h (some r)).handsets) : t.freeIfForsaken h = t :=
  State.freeIfForsaken_of_kept (by rw [same, State.putRecord_records, if_pos rfl]) kept

/-- A LOST record that no car and no marshal entry uses is freed (R33). -/
theorem State.freeIfForsaken_putRecord (s : State) (h : HandsetId) {r : Handset} (lost : r.link = .lost)
    (unbound : r.boundCar = none) (driver : r.marshal = false) :
    (s.putRecord h (some r)).freeIfForsaken h = s.freeHandset h := by
  obtain ⟨-, -, -, -, -, freed⟩ | ⟨stays, -⟩ := (s.putRecord h (some r)).freeIfForsaken_cases h
  · rw [freed]
    unfold State.freeHandset State.putRecord
    simp only [modAt_modAt]
  · exact absurd ⟨lost, unbound, driver⟩ (stays r ((State.putRecord_records ..).trans (if_pos rfl)))

/-- Settles O32: each expiry, by who holds the record and by the state of its car. -/
theorem silentHandsetsGoStaleAndLost : Obligations.SilentHandsetsGoStaleAndLost := by
  intro h r s record
  refine ⟨fun link due => ?_, fun link due => ?_⟩
  · simp only [execStaleExpiry_due record link due]
    refine ⟨fun unbound driver => ?_, fun c bound => ?_, fun m unbound marshal listed => ?_⟩
    · rw [State.announceLink_unheld _ (by exact unbound) (by exact driver)]
    · rw [State.announceLink_car _ (by exact bound)]
    · rw [State.announceLink_marshal _ (by exact unbound) (by exact marshal) (by exact listed)]
  · simp only [execHandsetLostExpiry_due record link due]
    have car_kept {c : CarId} (bound : r.boundCar = some c) : (r.lostAt s.now).kept = some (r.lostAt s.now) :=
      Handset.kept_bound (by exact bound)
    refine ⟨fun unbound driver => ?_, fun m unbound marshal listed => ?_, fun c a bound held notBound => ?_,
      fun c a bound held isBound => ?_⟩
    · rw [State.handLost_unbound _ (by exact unbound), State.announceLink_unheld _ (by exact unbound) (by exact driver),
        State.freeIfForsaken_putRecord s h rfl (by exact unbound) (by exact driver)]
      rfl
    · have marshal_kept : (r.lostAt s.now).kept = some (r.lostAt s.now) := Handset.kept_marshal (by exact marshal)
      rw [State.handLost_unbound _ (by exact unbound),
        State.announceLink_marshal _ (by exact unbound) (by exact marshal) (by exact listed),
        State.freeIfForsaken_of_put (s := s) marshal_kept (by simp)]
      rfl
    · rw [State.handLost_reserved _ (by exact bound) (by exact held) notBound,
        State.announceLink_car _ (by exact bound), State.freeIfForsaken_of_put (s := s) (car_kept bound) (by simp)]
      rfl
    · rw [State.handLost_bound _ (by exact bound) (by exact held) isBound,
        State.announceLink_car _ (by exact bound), State.freeIfForsaken_of_put (s := s) (car_kept bound) (by simp)]
      rfl

end Sys2Proof.Machine
end

section
/-! A PAIR edge that pairs: the car that held the identity is VACANT, then the offered car takes it (R54, R55). -/

namespace Sys2Proof.Machine

-- One after the other, the proofs need no thread each.
set_option Elab.async false

/-! ## The identity given up (R54) -/

section
variable {s : State} (ok : s.identitiesOk) {h : HandsetId} {r : Handset} (hr : s.handsets.records[h] = some r)
include ok hr

/-- The bound car of a record is the car that holds its identity (R20). -/
theorem State.carOf_eq_boundCar : s.carOf r.identity = r.boundCar := by
  obtain ⟨bound, -⟩ := ok.mirrors hr
  cases car : r.boundCar with
  | none => exact State.carOf_eq_none.2 fun c a ha hi => Option.some_ne_none c (((bound c).2 ⟨a, ha, hi⟩).symm.trans car)
  | some c =>
    obtain ⟨a, ha, hi⟩ := (bound c).1 car
    rw [← hi]
    exact State.carOf_of_unique ok ha

theorem State.held_of_boundCar {c : CarId} (bound : r.boundCar = some c) :
    s.binding.bindings[c].held.map (·.identity) = some r.identity := by
  obtain ⟨a, ha, hi⟩ := ((ok.mirrors hr).1 c).1 bound
  exact Option.map_eq_some_iff.2 ⟨a, ha, hi⟩

theorem State.vacated_eq : s.vacated r.identity = r.boundCar.elim s fun c => s.rebind c none id := by
  unfold State.vacated
  rw [State.carOf_eq_boundCar ok hr]

theorem State.vacated_bindings (k : CarId) :
    (s.vacated r.identity).binding.bindings[k] = if r.boundCar = some k then
        { s.binding.bindings[k] with
          held := none, revision := s.binding.bindings[k].revision + 1, mark := .dirty }
      else s.binding.bindings[k] := by
  rw [State.vacated_eq ok hr]
  cases r.boundCar with
  | none => exact (if_neg fun e => by cases e).symm
  | some c =>
    rw [Option.elim_some, State.rebind_bindings]
    simp only [Option.some.injEq, eq_comm]
    rfl

theorem State.vacated_intent (k : CarId) :
    (s.vacated r.identity).lane.intents[k] = if r.boundCar = some k then none else s.lane.intents[k] := by
  rw [State.vacated_eq ok hr]
  cases bound : r.boundCar with
  | none => exact (if_neg fun e => by cases e).symm
  | some c =>
    have differ : s.binding.bindings[c].held.map (·.identity) ≠ (none : Option Held).map (·.identity) := by
      rw [State.held_of_boundCar ok hr bound]
      exact Option.some_ne_none _
    rw [Option.elim_some, State.rebind_intent differ]
    simp only [Option.some.injEq, eq_comm]

theorem State.vacated_ports :
    (s.vacated r.identity).ports = (r.boundCar.elim s fun c =>
      s.offerRaceControl (.binding c none (s.binding.bindings[c].revision + 1))).ports := by
  rw [State.vacated_eq ok hr]
  cases r.boundCar with
  | none => rfl
  | some c => exact s.rebind_ports c none id

/-- Of all records, one that is not LOST loses its car, and every other stays. -/
theorem State.vacated_records (alive : r.link ≠ .lost) (k : HandsetId) :
    (s.vacated r.identity).handsets.records[k] = if k = h then some r.unbind else s.handsets.records[k] := by
  rw [State.vacated_eq ok hr]
  cases bound : r.boundCar with
  | none =>
    split
    · next same =>
      have unbound : r.unbind = r := by rw [Handset.unbind, ← bound]
      rw [same, unbound]
      exact hr
    · rfl
  | some c =>
    have kept : r.unbind.kept = some r.unbind := if_neg fun ⟨lost, _⟩ => alive lost
    rw [Option.elim_some, State.rebind_records ok, State.held_of_boundCar ok hr bound]
    split
    · next same =>
      rw [same, hr, Option.bind_some, Handset.exchanged_lose (fun e => by cases e) rfl, kept]
    · next other =>
      cases hq : s.handsets.records[k] with
      | none => rfl
      | some q =>
        refine Handset.exchanged_other (fun e => by cases e) fun same => other ?_
        exact (ok.alone hr k q hq).1 (Option.some.inj same).symm

theorem State.vacated_onlyFrees : s.onlyFrees (s.vacated r.identity) := by
  rw [State.vacated_eq ok hr]
  cases r.boundCar with
  | none => exact State.onlyFrees_of_eq rfl
  | some c => exact s.rebind_onlyFrees c none id

/-- The state that a car's new identity gives it, by the identity's record (R54, R58). -/
theorem State.heldStateFor_eq : s.heldStateFor r.identity = if r.link = .live then .bound else .reserved := by
  unfold State.heldStateFor
  rw [State.handsetOf_of_unique ok hr]
  simp only [hr, Option.any_some, beq_iff_eq]

end

@[simp] theorem State.vacated_fields (s : State) (i : Ident) :
    (s.vacated i).seq = s.seq ∧ (s.vacated i).geo = s.geo ∧ (s.vacated i).tracker = s.tracker ∧
    (s.vacated i).course = s.course ∧ (s.vacated i).store = s.store ∧ (s.vacated i).rcs = s.rcs ∧
    (s.vacated i).binding.marshals = s.binding.marshals ∧ (s.vacated i).binding.window = s.binding.window ∧
    (s.vacated i).binding.offers = s.binding.offers ∧ (s.vacated i).freeCount = s.freeCount ∧
    (s.vacated i).pending = s.pending := by
  unfold State.vacated
  cases s.carOf i <;> simp

theorem State.vacated_caps (s : State) (i : Ident) :
    (s.vacated i).lane = { s.lane with intents := (s.vacated i).lane.intents } := by
  unfold State.vacated
  cases s.carOf i with
  | none => rfl
  | some c => exact s.rebind_caps c none id

/-! ## The identity taken (R54) -/

section
variable {s : State} {o : Offer}

@[simp] theorem State.pairWith_fields (s : State) (i : Ident) (o : Offer) :
    (s.pairWith i o).seq = s.seq ∧ (s.pairWith i o).geo = s.geo ∧ (s.pairWith i o).tracker = s.tracker ∧
    (s.pairWith i o).course = s.course ∧ (s.pairWith i o).store = s.store ∧ (s.pairWith i o).rcs = s.rcs ∧
    (s.pairWith i o).binding.marshals = s.binding.marshals ∧ (s.pairWith i o).binding.window = s.binding.window ∧
    (s.pairWith i o).binding.offers = s.binding.offers.filter (·.car != o.car) ∧
    (s.pairWith i o).freeCount = s.freeCount ∧ (s.pairWith i o).pending = s.pending := by
  rw [State.pairWith_eq]
  simp [State.modOffers]

theorem State.pairWith_caps (s : State) (i : Ident) (o : Offer) :
    (s.pairWith i o).lane = { s.lane with intents := (s.pairWith i o).lane.intents } := by
  have taken := (s.vacated i).rebind_caps o.car (some (s.pairedHeld i)) id
  rw [State.vacated_caps] at taken
  exact taken

variable (ok : s.identitiesOk) {h : HandsetId} {r : Handset} (hr : s.handsets.records[h] = some r)
  (alive : r.link ≠ .lost) (other : s.binding.bindings[o.car].held.map (·.identity) ≠ some r.identity)

section
include ok hr

theorem State.pairedHeld_eq (alive : r.link ≠ .lost) :
    s.pairedHeld r.identity = Held.mk r.identity .paired (if r.link = .live then .bound else .reserved) := by
  have vacated : (s.vacated r.identity).handsets.records[h] = some r.unbind := by
    rw [State.vacated_records ok hr alive, if_pos rfl]
  exact congrArg (Held.mk r.identity .paired)
    (State.heldStateFor_eq (r := r.unbind) (State.vacated_identitiesOk ok _) vacated)

theorem State.pairWith_onlyFrees : s.onlyFrees (s.pairWith r.identity o) := by
  refine (State.vacated_onlyFrees ok hr).trans ?_
  exact ((s.vacated r.identity).rebind_onlyFrees o.car (some (s.pairedHeld r.identity)) id).trans
    (State.onlyFrees_of_eq rfl)

include other

theorem State.boundCar_ne_offered : r.boundCar ≠ some o.car := fun bound =>
  other (State.held_of_boundCar ok hr bound)

/-- The offered car as the vacated one leaves it. -/
theorem State.vacated_offered : (s.vacated r.identity).binding.bindings[o.car] = s.binding.bindings[o.car] := by
  rw [State.vacated_bindings ok hr, if_neg (State.boundCar_ne_offered ok hr other)]

theorem State.pairWith_bindings (k : CarId) :
    (s.pairWith r.identity o).binding.bindings[k] =
      if k = o.car then
        { s.binding.bindings[o.car] with
          held := some (s.pairedHeld r.identity), revision := s.binding.bindings[o.car].revision + 1,
          mark := .dirty }
      else (s.vacated r.identity).binding.bindings[k] := by
  rw [State.pairWith_eq]
  change ((s.vacated r.identity).rebind _ _ id).binding.bindings[k] = _
  rw [State.rebind_bindings]
  split
  · next same =>
    subst same
    rw [State.vacated_offered ok hr other]
    rfl
  · rfl

theorem State.pairWith_intent (k : CarId) :
    (s.pairWith r.identity o).lane.intents[k] =
      if k = o.car then none else (s.vacated r.identity).lane.intents[k] := by
  have differ : (s.vacated r.identity).binding.bindings[o.car].held.map (·.identity) ≠
      (some (s.pairedHeld r.identity)).map (·.identity) := by
    rw [State.vacated_offered ok hr other]
    exact other
  exact State.rebind_intent differ id k

theorem State.pairWith_ports :
    (s.pairWith r.identity o).ports = ((r.boundCar.elim s fun c =>
      s.offerRaceControl (.binding c none (s.binding.bindings[c].revision + 1))).offerRaceControl
        (.binding o.car (some (s.pairedHeld r.identity)) (s.binding.bindings[o.car].revision + 1))).ports := by
  have taken := (s.vacated r.identity).rebind_ports o.car (some (s.pairedHeld r.identity)) id
  rw [State.vacated_offered ok hr other] at taken
  refine taken.trans (State.offerRaceControl_ports_congr (State.vacated_ports ok hr) ?_ _)
  cases r.boundCar <;> simp

include alive

/-- A record after a pairing: what the vacated one leaves, exchanged at the offered car. -/
theorem State.pairWith_records (k : HandsetId) :
    (s.pairWith r.identity o).handsets.records[k] =
      if k = h then some (r.bindTo o.car)
      else (s.handsets.records[k]).bind fun q =>
        if s.binding.bindings[o.car].held.map (·.identity) = some q.identity then q.unbind.kept else some q := by
  have vok := State.vacated_identitiesOk ok r.identity
  rw [State.pairWith_eq]
  change ((s.vacated r.identity).rebind _ _ id).handsets.records[k] = _
  rw [State.rebind_records vok, State.vacated_offered ok hr other, State.vacated_records ok hr alive]
  split
  · exact Handset.exchanged_gain rfl
  · next differ =>
    cases hq : s.handsets.records[k] with
    | none => rfl
    | some q => exact if_neg fun same => differ ((ok.alone hr k q hq).1 (Option.some.inj same).symm)

end

/-- A record whose identity a car holds is no marshal's (R57, R61). -/
theorem State.driver_of_held {s : State} (ok : s.identitiesOk) {k : HandsetId} {q : Handset}
    (hq : s.handsets.records[k] = some q) {c : CarId}
    (holds : s.binding.bindings[c].held.map (·.identity) = some q.identity) : q.marshal = false := by
  obtain ⟨-, listed⟩ := ok.mirrors hq
  obtain ⟨a, ha, hi⟩ := Option.map_eq_some_iff.1 holds
  obtain ⟨-, -, apart, -⟩ := ok
  refine Bool.eq_false_of_not_eq_true fun marshal => ?_
  obtain ⟨m, hm⟩ := listed.1 marshal
  exact apart c m a ha (hm.trans (congrArg some hi.symm))

end

/-- Of the other records, the one of the offered car's identity loses its car, and is freed if it is LOST. -/
theorem State.pairWith_otherRecord {s : State} (ok : s.identitiesOk) {h : HandsetId} {r : Handset}
    (hr : s.handsets.records[h] = some r) (alive : r.link ≠ .lost) {o : Offer}
    (other : s.binding.bindings[o.car].held.map (·.identity) ≠ some r.identity) {k : HandsetId} {q : Handset}
    (differ : k ≠ h) (hq : s.handsets.records[k] = some q) :
    let old := s.binding.bindings[o.car].held.map (·.identity)
    (old ≠ some q.identity → (s.pairWith r.identity o).handsets.records[k] = some q) ∧
    (old = some q.identity → q.link = .lost → (s.pairWith r.identity o).handsets.records[k] = none) ∧
    (old = some q.identity → q.link ≠ .lost →
      (s.pairWith r.identity o).handsets.records[k] = some { q with boundCar := none }) := by
  intro old
  rw [State.pairWith_records ok hr alive other, if_neg differ, hq, Option.bind_some]
  refine ⟨fun keeps => if_neg keeps, fun gives lost => ?_, fun gives used => ?_⟩ <;> rw [if_pos gives]
  · exact if_pos ⟨lost, rfl, State.driver_of_held (q := q) ok hq gives⟩
  · exact if_neg fun ⟨lost, _⟩ => used lost

/-- A record in use that is rewritten frees nothing. -/
theorem State.onlyFrees_of_put {s t : State} {h : HandsetId} {r q : Handset} (hr : s.handsets.records[h] = some r)
    (same : t.handsets = (s.putRecord h (some q)).handsets) : s.onlyFrees t := by
  refine State.onlyFrees_of_none_freed (by rw [same]; rfl) fun k => ?_
  rw [same, State.putRecord_records]
  split
  · next here =>
    rw [here, hr]
    exact iff_of_false (Option.some_ne_none _) (Option.some_ne_none _)
  · exact Iff.rfl

/-- A PAIR edge that pairs, as what the pairing makes of the state that the report leaves. -/
theorem exec_reportHandset_pairs {p : PortId} {count throttle battery strength : Byte} {h : HandsetId} {r : Handset}
    {before after : List Offer} {o : Offer} {s : State} (hears : s.hears p h r r.identity count throttle 4 strength)
    (accepts : r.accepts count) (driver : r.marshal = false) (edge : r.edge 4) (opened : s.binding.window ≠ none)
    (strong : s.course.settings.pairingFloor.toNat ≤ strength.toNat) (list : s.binding.offers = before ++ o :: after)
    (passed : ∀ q ∈ before, s.geo.sensors[q.sensor].owner ≠ p) (owner : s.geo.sensors[o.sensor].owner = p)
    (other : s.binding.bindings[o.car].held.map (·.identity) ≠ some r.identity) :
    exec (.reportHandset p r.identity count throttle 4 battery strength) s =
      .next ((((s.accepted p h r count throttle 4 battery strength).pairWith r.identity o).announcePair p r.identity .ok
        (some o.car)).answer p (.done [0])) := by
  have ⟨_, ⟨_, _, _, _, _, range⟩, _⟩ := hears
  have strength_kept : (strength.setWidth 4).toNat = strength.toNat := setWidth_code_toNat range
  have near := (State.accepted_matchingOffer (h := h) (r := r) (count := count) (throttle := throttle) (code := 4)
    (battery := battery) (strength := strength) (s := s) (p := p) p).trans (State.matchingOffer_eq list passed owner)
  rw [exec_reportHandset_pair hears accepts edge, driver, State.pairEdge_ok (by simpa using opened)
    (by simpa [strength_kept] using strong) near (by rw [State.accepted_identity]; exact other)]

/-- Settles O31: the pairing acts on what the report leaves, where the record is its own with a new link state. -/
theorem pairEdgeGivesTheOfferedCar : Obligations.PairEdgeGivesTheOfferedCar := by
  intro p identity count throttle battery strength h r before after o s hears ok offersOk accepts driver edge opened
    strong list passed owner other
  have ⟨_, _, _, hr, holds⟩ := hears
  subst holds
  simp only
  rw [exec_reportHandset_pairs hears accepts driver edge opened strong list passed owner other]
  have uok : (s.accepted p h r count throttle 4 battery strength).identitiesOk := State.accepted_identitiesOk ok hr
  have consumed := State.consume_offer (s := s.accepted p h r count throttle 4 battery strength)
    (State.accepted_lampsAndOffersOk offersOk) (by simpa using list)
  have held := State.accepted_identity (p := p) (h := h) (r := r) (count := count) (throttle := throttle)
    (code := 4) (battery := battery) (strength := strength) (s := s) o.car
  have bindings := fun k => State.accepted_bindings (p := p) (h := h) (r := r) (count := count) (throttle := throttle)
    (code := 4) (battery := battery) (strength := strength) (s := s) (k := k)
  obtain ⟨seq, geo, handsets, marshals, window, offers, tracker, lane, course, store, rcs, freeCount, pending⟩ :=
    s.accepted_fields p count throttle 4 battery strength h r
  generalize s.accepted p h r count throttle 4 battery strength = u at *
  have alive : (r.after p count throttle 4 battery strength s.now).link ≠ .lost := r.linkAfter_ne_lost count
  have records (k : HandsetId) : u.handsets.records[k] =
      if k = h then some (r.after p count throttle 4 battery strength s.now) else s.handsets.records[k] := by
    rw [handsets]
    exact State.putRecord_records ..
  have record := (records h).trans (if_pos rfl)
  have unbound : r.boundCar ≠ some o.car := State.boundCar_ne_offered ok hr other
  rw [← held] at other
  have paired : u.pairedHeld (r.after p count throttle 4 battery strength s.now).identity = Held.mk r.identity .paired
      (if r.linkAfter count = .live then .bound else .reserved) := State.pairedHeld_eq uok record alive
  have car (k : CarId) := State.pairWith_bindings uok record other k
  have intent (k : CarId) := State.pairWith_intent uok record other k
  have vacated (k : CarId) := State.vacated_bindings uok record k
  have cleared (k : CarId) := State.vacated_intent uok record k
  obtain ⟨arms, free⟩ := (State.onlyFrees_of_put hr handsets).trans (State.pairWith_onlyFrees uok record (o := o))
  refine ⟨_, rfl, ?_, fun k differ kept => ⟨?_, ?_⟩, fun k bound => ⟨?_, ?_⟩, ?_, ?_, arms, free,
    fun k q differ hq => ?_, ?_⟩
  · change (u.pairWith r.identity o).binding.bindings[o.car] = _
    refine (car o.car).trans ?_
    rw [if_pos rfl, bindings _ unbound]
    exact congrArg (fun a => { s.binding.bindings[o.car] with
      held := some a, revision := s.binding.bindings[o.car].revision + 1, mark := .dirty }) paired
  · refine (car k).trans ?_
    rw [if_neg differ]
    exact (vacated k).trans ((if_neg kept).trans (bindings k kept))
  · refine (intent k).trans ?_
    rw [if_neg differ, ← lane]
    exact (cleared k).trans (if_neg kept)
  · refine (intent k).trans (ite_eq_left_iff.2 fun _ => ?_)
    exact (cleared k).trans (if_pos bound)
  · have differ : k ≠ o.car := fun e => unbound (bound.trans (congrArg some e))
    refine (car k).trans ?_
    rw [if_neg differ]
    exact (vacated k).trans (if_pos bound)
  · exact (intent o.car).trans (if_pos rfl)
  · exact (State.pairWith_records uok record alive other h).trans (if_pos rfl)
  · rw [← held]
    exact State.pairWith_otherRecord uok record alive other differ ((records k).trans (if_neg differ |>.trans hq))
  · have consumedOffers : u.binding.offers.filter (·.car != o.car) = before ++ after :=
      congrArg (fun v : State => v.binding.offers) consumed
    have ports := State.pairWith_ports uok record other
    rw [paired, bindings _ unbound] at ports
    have told := State.offerWithRaceControl_ports_congr ports
      (by cases bound : (r.after p count throttle 4 battery strength s.now).boundCar <;> simp) p
      (.pairResult r.identity .ok (some o.car))
    obtain ⟨-, -, -, -, -, -, sameMarshals, sameWindow, filtered, -, -⟩ := u.pairWith_fields r.identity o
    have pairing : (u.pairWith r.identity o).binding = { s.binding with
        bindings := (u.pairWith r.identity o).binding.bindings, offers := before ++ after } := by
      simp only [← marshals, ← window, ← consumedOffers, ← sameMarshals, ← sameWindow, ← filtered]
    have caps := u.pairWith_caps r.identity o
    rw [lane] at caps
    simp only [State.announcePair, ← seq, ← geo, ← tracker, ← course, ← store, ← rcs, ← freeCount, ← pending]
    exact State.ext_blocks (binding := by simpa using pairing) (lane := by simpa using caps)
      (ports := State.answer_ports_congr told ..)

end Sys2Proof.Machine
end

section
/-! Applies of binding records and marshal entries (R57, R58, R61). -/

namespace Sys2Proof.Machine

-- One after the other, the proofs need no thread each.
set_option Elab.async false

/-! ## The tests of an identity (R57, R61) -/

section
variable {s : State} {new : Option Ident}

theorem State.heldByOther_any {c : CarId} :
    new.any (s.heldByOther c) = true ↔
      ∃ (k : CarId) (a : Held), k ≠ c ∧ s.binding.bindings[k].held = some a ∧ new = some a.identity := by
  simp only [Option.any_eq_true, State.heldByOther_iff]
  constructor
  · rintro ⟨i, rfl, k, a, differ, ha, rfl⟩
    exact ⟨k, a, differ, ha, rfl⟩
  · rintro ⟨k, a, differ, ha, rfl⟩
    exact ⟨a.identity, rfl, k, a, differ, ha, rfl⟩

theorem State.marshalOf_isSome {i : Ident} :
    (s.marshalOf i).isSome = true ↔ ∃ m : MarshalId, s.binding.marshals[m].identity = some i := by
  rw [Option.isSome_iff_ne_none, ne_eq, State.marshalOf_eq_none]
  simp

theorem State.marshalOf_any :
    (new.any fun i => (s.marshalOf i).isSome) = true ↔
      ∃ m : MarshalId, s.binding.marshals[m].identity = new ∧ new ≠ none := by
  simp only [Option.any_eq_true, State.marshalOf_isSome]
  constructor
  · rintro ⟨i, rfl, m, hm⟩
    exact ⟨m, hm, Option.some_ne_none i⟩
  · rintro ⟨m, hm, present⟩
    obtain ⟨i, rfl⟩ := Option.ne_none_iff_exists'.1 present
    exact ⟨i, rfl, m, hm⟩

theorem State.carOf_isSome {i : Ident} :
    (s.carOf i).isSome = true ↔ ∃ (k : CarId) (a : Held), s.binding.bindings[k].held = some a ∧ a.identity = i := by
  rw [Option.isSome_iff_ne_none, ne_eq, State.carOf_eq_none]
  simp

/-- A marshal entry's identity is used elsewhere by a car or by another entry. -/
theorem State.usedElsewhere_any {m : MarshalId} :
    (new.any fun i => (s.carOf i).isSome || s.listedElsewhere m i) = true ↔
      (∃ (k : CarId) (a : Held), s.binding.bindings[k].held = some a ∧ new = some a.identity) ∨
        ∃ n : MarshalId, n ≠ m ∧ s.binding.marshals[n].identity = new ∧ new ≠ none := by
  simp only [Option.any_eq_true, Bool.or_eq_true, State.carOf_isSome, State.listedElsewhere_iff]
  constructor
  · rintro ⟨i, rfl, ⟨k, a, ha, rfl⟩ | ⟨n, differ, hn⟩⟩
    · exact .inl ⟨k, a, ha, rfl⟩
    · exact .inr ⟨n, differ, hn, Option.some_ne_none i⟩
  · rintro (⟨k, a, ha, rfl⟩ | ⟨n, differ, hn, present⟩)
    · exact ⟨a.identity, rfl, .inl ⟨k, a, ha, rfl⟩⟩
    · obtain ⟨i, rfl⟩ := Option.ne_none_iff_exists'.1 present
      exact ⟨i, rfl, .inr ⟨n, differ, hn⟩⟩

end

/-! ## What a manual apply gives a car (R58) -/

section
variable {s : State} {c : CarId} {i : Ident}

theorem State.manualHeld_kept {old : Held} (holds : s.binding.bindings[c].held = some old) (same : old.identity = i) :
    s.manualHeld c (some i) = some { old with source := .manual } := by
  unfold State.manualHeld
  simp only [holds, Option.map_some, if_pos same]

theorem State.manualHeld_new (other : s.binding.bindings[c].held.map (·.identity) ≠ some i) :
    s.manualHeld c (some i) = some (Held.mk i .manual (s.heldStateFor i)) := by
  unfold State.manualHeld
  cases holds : s.binding.bindings[c].held with
  | none => rfl
  | some old =>
    have differ : old.identity ≠ i := fun e => other (by rw [holds, ← e]; rfl)
    simp only [Option.map_some, if_neg differ]

theorem State.heldStateFor_eq_bound (ok : s.identitiesOk) :
    s.heldStateFor i = .bound ↔
      ∃ (h : HandsetId) (r : Handset), s.handsets.records[h] = some r ∧ r.identity = i ∧ r.link = .live := by
  refine ⟨fun bound => ?_, ?_⟩
  · obtain ⟨-, live⟩ | ⟨reserved, -⟩ := s.heldStateFor_cases i
    · exact live
    · exact HeldState.noConfusion (bound.symm.trans reserved)
  · rintro ⟨h, r, hr, rfl, live⟩
    rw [State.heldStateFor_eq ok hr, if_pos live]

/-- The source, and the state by whether the identity is the car's own. -/
theorem State.manualHeld_spec (ok : s.identitiesOk) {new : Option Ident} {a : Held} (ha : s.manualHeld c new = some a) :
    a.source = .manual ∧
      (∀ old : Held, s.binding.bindings[c].held = some old → old.identity = a.identity → a.state = old.state) ∧
      (s.binding.bindings[c].held.map (·.identity) ≠ new →
        (a.state = .bound ∨ a.state = .reserved) ∧
        (a.state = .bound ↔ ∃ (h : HandsetId) (r : Handset), s.handsets.records[h] = some r ∧
          r.identity = a.identity ∧ r.link = .live)) := by
  have taken := s.manualHeld_identity c new
  rw [ha] at taken
  cases taken
  by_cases same : s.binding.bindings[c].held.map (·.identity) = some a.identity
  · obtain ⟨b, hb, hi⟩ := Option.map_eq_some_iff.1 same
    rw [Option.map_some, State.manualHeld_kept hb hi] at ha
    cases ha
    refine ⟨rfl, fun old hold _ => ?_, fun other => absurd same other⟩
    cases Option.some.inj (hb.symm.trans hold)
    rfl
  · rw [Option.map_some, State.manualHeld_new same] at ha
    rw [← Option.some.inj ha] at same ⊢
    refine ⟨rfl, fun old hold hi => absurd ?_ same, fun _ => ⟨?_, State.heldStateFor_eq_bound ok⟩⟩
    · rw [hold, ← hi]
      rfl
    · obtain ⟨bound, -⟩ | ⟨reserved, -⟩ := s.heldStateFor_cases a.identity
      · exact .inl bound
      · exact .inr reserved

end

/-! ## An apply of a binding record past its range tests -/

/-- A binding image whose ceiling and permit are in range. -/
theorem parseBinding_image {i : Ident} {ceiling permit : Byte} {tail : List Byte} (ceilingRange : ceiling.toNat ≤ 63)
    (permitRange : permit.toNat ≤ 1) :
    parseBinding (i.extractLsb' 8 8 :: i.extractLsb' 0 8 :: ceiling :: permit :: tail) =
      .ok (BindingFields.mk (identOf i) (ceiling.setWidth 6) (if permit = 1 then .barred else .allowed)) := by
  have speed : inRange 0 63 ceiling = true := (inRange_eq ..).trans (decide_eq_true ⟨Nat.zero_le _, ceilingRange⟩)
  have flag : decide (permit.toNat < 2) = true := decide_eq_true (Nat.lt_succ_of_le permitRange)
  have word : wordAt (i.extractLsb' 8 8 :: i.extractLsb' 0 8 :: ceiling :: permit :: tail) 0 = i := bytes_joined i
  unfold parseBinding
  rw [word]
  refine (bind_of_ok (checked_true speed)).trans ((bind_of_ok (checked_true flag)).trans ?_)
  exact congrArg (fun x : Permit => Except.ok (BindingFields.mk (identOf i) (ceiling.setWidth 6) x))
    (if_congr beq_iff_eq rfl rfl)

/-- The ceiling and the permit of an image set in a binding record. -/
def BindingFields.set (x : BindingFields) (b : Binding) : Binding := { b with ceiling := x.ceiling, permit := x.permit }

section
variable {s : State} {p : PortId} {c : CarId} {image : List Byte} {x : BindingFields} (parsed : parseBinding image = .ok x)
include parsed

theorem State.applyBinding_inUse (other : x.identity.any (s.heldByOther c) = true) :
    (s.taken p).applyBinding p c image = s.answer p (.refused .inUse) := by
  unfold State.applyBinding
  rw [parsed]
  exact (if_pos other).trans (State.taken_refuse ..)

theorem State.applyBinding_marshal (free : ¬ x.identity.any (s.heldByOther c) = true)
    (listed : (x.identity.any fun i => (s.marshalOf i).isSome) = true) :
    (s.taken p).applyBinding p c image = s.answer p (.refused .marshal) := by
  unfold State.applyBinding
  rw [parsed]
  exact (if_neg free).trans ((if_pos listed).trans (State.taken_refuse ..))

theorem State.applyBinding_ok (free : ¬ x.identity.any (s.heldByOther c) = true)
    (unlisted : ¬ (x.identity.any fun i => (s.marshalOf i).isSome) = true) :
    (s.taken p).applyBinding p c image =
      (s.rebind c (s.manualHeld c x.identity) x.set).answer p
        (.done [3, BitVec.ofNat 8 (c.val + 1), s.binding.bindings[c].revision + 1]) := by
  have applied : (s.taken p).applyBinding p c image =
      ((s.taken p).rebind c (s.manualHeld c x.identity) x.set).applyDone p (.binding c) := by
    unfold State.applyBinding
    rw [parsed]
    exact (if_neg free).trans (if_neg unlisted)
  have revision (held : Option Held) (f : Binding → Binding) :
      (s.rebind c held f).revisionOf (.binding c) = some (s.binding.bindings[c].revision + 1) := by
    simp only [State.revisionOf]
    rw [State.rebind_bindings, if_pos rfl]
  rw [applied, State.taken_rebind, State.taken_applyDone, revision]
  rfl

end

/-- Settles O22: the two refusals by the identity's tests, else the rebinding of the car. -/
theorem bindingApplySetsTheCar : Obligations.BindingApplySetsTheCar := by
  intro p s st c i ceiling permit tail new may ok ref image ceilingRange permitRange identity
  simp only
  have run := exec_apply_of_mayApply may
  rw [ref, image] at run
  have parsed := parseBinding_image (i := i) (tail := tail) ceilingRange permitRange
  change new = identOf i at identity
  rw [← identity] at parsed
  let x := BindingFields.mk new (ceiling.setWidth 6) (if permit = 1 then .barred else .allowed)
  rw [run]
  refine ⟨fun other => ?_, fun free listed => ?_, fun free unlisted => ?_⟩
  · exact congrArg Host.Outcome.next (State.applyBinding_inUse (s := s.setStaging p none) parsed
      (State.heldByOther_any.2 other))
  · exact congrArg Host.Outcome.next (State.applyBinding_marshal (s := s.setStaging p none) parsed
      (mt State.heldByOther_any.1 free) (State.marshalOf_any.2 listed))
  · have applied := State.applyBinding_ok (s := s.setStaging p none) (p := p) parsed
      (mt State.heldByOther_any.1 free) (mt State.marshalOf_any.1 unlisted)
    refine ⟨_, s.manualHeld c new, congrArg Host.Outcome.next applied, s.manualHeld_identity c new,
      fun a ha => State.manualHeld_spec ok ha, ?_, fun k differ => ?_, ?_, ?_⟩
    · exact (State.rebind_bindings ..).trans (if_pos rfl)
    · exact (State.rebind_bindings ..).trans (if_neg differ)
    · have follow := (s.setStaging p none).rebind_neighboursFollow ok.recordsUnique c (s.manualHeld c new) x.set
      rw [State.manualHeld_identity] at follow
      exact follow
    · exact State.ext_blocks (binding := (s.setStaging p none).rebind_block c (s.manualHeld c new) x.set)
        (lane := (s.setStaging p none).rebind_caps c (s.manualHeld c new) x.set)
        (ports := State.answer_ports_congr ((s.setStaging p none).rebind_ports c (s.manualHeld c new) x.set) ..)

/-! ## An apply of a marshal entry -/

section
variable (s : State) (p : PortId) (m : MarshalId)

theorem State.taken_carryMarshal (old new : Option Ident) :
    (s.taken p).carryMarshal old new = (s.carryMarshal old new).taken p := by
  unfold State.carryMarshal
  by_cases same : old = new
  · rw [if_pos same, if_pos same]
  · rw [if_neg same, if_neg same]
    cases old <;> cases new <;>
      simp only [Option.elim_none, Option.elim_some, State.flagMarshal_eq, State.taken_editRecord]

theorem State.taken_relist (new : Option Ident) : (s.taken p).relist m new = (s.relist m new).taken p := by
  unfold State.relist
  rw [State.taken_carryMarshal]
  rfl

/-- The entry as the apply writes it. -/
theorem State.relist_eq (new : Option Ident) :
    (let carried := s.carryMarshal s.binding.marshals[m].identity new
     { carried with binding := { carried.binding with
        marshals := modAt carried.binding.marshals m fun e => MarshalEntry.mk new (e.revision + 1) .dirty } }) =
      s.relist m new := by
  unfold State.relist State.putMarshal
  simp only [State.carryMarshal_fields]
  rfl

/-- Of the other blocks, a listing changes the Handset Table alone. -/
@[simp] theorem State.relist_fields (new : Option Ident) :
    (s.relist m new).seq = s.seq ∧ (s.relist m new).geo = s.geo ∧
    (s.relist m new).binding =
      (s.putMarshal m (MarshalEntry.mk new (s.binding.marshals[m].revision + 1) .dirty)).binding ∧
    (s.relist m new).tracker = s.tracker ∧ (s.relist m new).lane = s.lane ∧ (s.relist m new).course = s.course ∧
    (s.relist m new).store = s.store ∧ (s.relist m new).ports = s.ports ∧ (s.relist m new).rcs = s.rcs ∧
    (s.relist m new).freeCount = s.freeCount ∧ (s.relist m new).pending = s.pending := by
  unfold State.relist
  simp

/-- An apply of a marshal entry is refused, or lists the identity and tells race control. -/
theorem State.applyMarshal_eq (image : List Byte) :
    s.applyMarshal p m image =
      if ((identOf (wordAt image 0)).any fun i => (s.carOf i).isSome || s.listedElsewhere m i) = true then
        s.refuse p .inUse
      else ((s.relist m (identOf (wordAt image 0))).offerRaceControl
        (.marshalList m (identOf (wordAt image 0)) (s.binding.marshals[m].revision + 1))).applyDone p (.marshal m) := by
  unfold State.applyMarshal
  simp only
  rw [State.relist_eq, modAt_get_self]
  simp only [State.carryMarshal_fields]

end

theorem State.applyMarshal_inUse {s : State} {p : PortId} {m : MarshalId} {image : List Byte}
    (used : ((identOf (wordAt image 0)).any fun i => (s.carOf i).isSome || s.listedElsewhere m i) = true) :
    (s.taken p).applyMarshal p m image = s.answer p (.refused .inUse) :=
  (State.applyMarshal_eq ..).trans ((if_pos used).trans (State.taken_refuse ..))

theorem State.applyMarshal_ok {s : State} {p : PortId} {m : MarshalId} {image : List Byte}
    (free : ¬ ((identOf (wordAt image 0)).any fun i => (s.carOf i).isSome || s.listedElsewhere m i) = true) :
    (s.taken p).applyMarshal p m image =
      ((s.relist m (identOf (wordAt image 0))).offerRaceControl
        (.marshalList m (identOf (wordAt image 0)) (s.binding.marshals[m].revision + 1))).answer p
          (.done [4, BitVec.ofNat 8 (m.val + 1), s.binding.marshals[m].revision + 1]) := by
  have revision (body : NoticeBody) : ((s.relist m (identOf (wordAt image 0))).offerRaceControl body).revisionOf
      (.marshal m) = some (s.binding.marshals[m].revision + 1) := by
    simp only [State.revisionOf, State.offerRaceControl_fields]
    rw [State.relist_entry, if_pos rfl]
  refine (State.applyMarshal_eq ..).trans ((if_neg free).trans ?_)
  rw [State.taken_relist, State.taken_offerRaceControl, State.taken_applyDone, revision]
  rfl

/-- A changed identity of an entry is carried to the flags of the records (R20, R33, R61). -/
theorem State.relist_flagsFollow {s : State} (unique : s.recordsUnique) {m : MarshalId} {new : Option Ident}
    (differ : s.binding.marshals[m].identity ≠ new) :
    s.armsOnFreeing (s.relist m new) ∧ ∀ h : HandsetId,
      (s.handsets.records[h] = none → (s.relist m new).handsets.records[h] = none) ∧
      ∀ r : Handset, s.handsets.records[h] = some r →
        (new = some r.identity → (s.relist m new).handsets.records[h] = some { r with marshal := true }) ∧
        (s.binding.marshals[m].identity = some r.identity → r.link = .lost → r.boundCar = none →
          (s.relist m new).handsets.records[h] = none) ∧
        (s.binding.marshals[m].identity = some r.identity → (r.link ≠ .lost ∨ r.boundCar ≠ none) →
          (s.relist m new).handsets.records[h] = some { r with marshal := false }) ∧
        (new ≠ some r.identity → s.binding.marshals[m].identity ≠ some r.identity →
          (s.relist m new).handsets.records[h] = some r) := by
  obtain ⟨arms, free⟩ := s.carryMarshal_onlyFrees s.binding.marshals[m].identity new
  refine ⟨arms, fun h => ⟨free h, fun r hr => ?_⟩⟩
  have after : (s.relist m new).handsets.records[h] = _ := State.carryMarshal_records unique differ h
  rw [hr, Option.bind_some] at after
  have untaken (gives : s.binding.marshals[m].identity = some r.identity) : new ≠ some r.identity :=
    fun takes => differ (gives.trans takes.symm)
  rw [after]
  refine ⟨Handset.exchanged_gain, fun gives lost unbound => ?_, fun gives used => ?_, Handset.exchanged_other⟩ <;>
    rw [Handset.exchanged_lose (untaken gives) gives]
  · exact if_pos ⟨lost, unbound, rfl⟩
  · exact if_neg fun ⟨lost, unbound, _⟩ => used.elim (· lost) (· unbound)

/-- Settles O23: the refusal by the identity's test, else the entry listed with the records' flags carried. -/
theorem marshalApplySetsTheEntry : Obligations.MarshalApplySetsTheEntry := by
  intro p s st m i tail new may ok ref image identity
  simp only
  have run := exec_apply_of_mayApply may
  rw [ref, image] at run
  have word : identOf (wordAt (i.extractLsb' 8 8 :: i.extractLsb' 0 8 :: tail) 0) = new := by
    rw [identity]
    exact congrArg identOf (bytes_joined i)
  rw [run]
  refine ⟨fun used => ?_, fun free => ?_⟩
  · refine congrArg Host.Outcome.next (State.applyMarshal_inUse (s := s.setStaging p none) ?_)
    rw [word]
    exact State.usedElsewhere_any.2 used
  · have applied := State.applyMarshal_ok (s := s.setStaging p none) (p := p) (m := m)
      (image := i.extractLsb' 8 8 :: i.extractLsb' 0 8 :: tail) (by rw [word]; exact mt State.usedElsewhere_any.1 free)
    rw [word] at applied
    have changed (differ : s.binding.marshals[m].identity ≠ new) :=
      State.relist_flagsFollow (s := s.setStaging p none) ok.recordsUnique differ
    refine ⟨_, congrArg Host.Outcome.next applied, fun same => ?_, changed, ?_⟩
    · change ((s.setStaging p none).carryMarshal s.binding.marshals[m].identity new).handsets = s.handsets
      rw [same, State.carryMarshal_same]
      rfl
    · have told := State.offerRaceControl_ports_congr (s := (s.setStaging p none).relist m new)
        (t := s.setStaging p none) (by simp) (by simp)
        (.marshalList m new (s.binding.marshals[m].revision + 1))
      exact State.ext_blocks (ports := State.answer_ports_congr told ..)

end Sys2Proof.Machine
end

section
/-! The state right after reset, as delivered (R40, R64, R65, R85, R133, R142). -/

namespace Sys2Proof.Machine

/-! ## The invariants at reset -/

theorem Port.reset_wf (raceControl : Bool) : (Port.reset raceControl).wf := by
  simp [Port.wf, Port.reset]

theorem State.reset_portsWf : State.reset.portsWf := fun p => by
  have delivered : State.reset.ports[p] = Port.reset (p.val == 0) := by simp [State.reset]
  rw [delivered]
  exact Port.reset_wf _

/-- Nobody is on the track, so no list and no position record says otherwise. -/
theorem State.occupancyOk_of_empty {s : State} (unplaced : ∀ c : CarId, s.tracker.cars[c].placed = none)
    (empty : ∀ z : ZoneId, s.tracker.lists[z] = []) : s.occupancyOk := by
  refine ⟨fun z o ho => ?_, fun z => ?_, fun c pl hp => ?_⟩
  · rw [empty] at ho
    exact absurd ho List.not_mem_nil
  · rw [empty]
    exact List.nodup_nil
  · rw [unplaced] at hp
    exact nomatch hp

/-- No car is held, so no hold list, cap or recheck time stands without its fellows. -/
theorem State.holdsOk_of_none {s : State} (holds : ∀ w : SwitchId, (s.switch w).holds = [])
    (caps : ∀ c : CarId, s.lane.pitHolds[c] = none) (rechecks : ∀ w : SwitchId, (s.switch w).recheck = none) :
    s.holdsOk := by
  refine ⟨fun w c => ?_, fun w => ?_, fun w => iff_of_true (rechecks w) (holds w)⟩
  · rw [holds, caps]
    exact iff_of_false (fun ⟨_, hm, _⟩ => List.not_mem_nil hm) nofun
  · rw [holds]
    exact List.nodup_nil

theorem State.reset_switch (w : SwitchId) : State.reset.switch w = .reset := by
  simp [State.switch, State.reset, LaneArbiter.reset]

theorem State.reset_occupancyOk : State.reset.occupancyOk :=
  State.occupancyOk_of_empty (fun c => by simp [State.reset, Tracker.reset, CarRecord.reset])
    (fun z => by simp [State.reset, Tracker.reset])

theorem State.reset_holdsOk : State.reset.holdsOk :=
  State.holdsOk_of_none (fun w => congrArg SwitchState.holds (State.reset_switch w))
    (fun c => by simp [State.reset, LaneArbiter.reset])
    (fun w => congrArg SwitchState.recheck (State.reset_switch w))

theorem State.reset_identitiesOk : State.reset.identitiesOk :=
  State.identitiesOk_of_vacant (fun c => by simp [State.reset, BindingTable.reset, Binding.reset])
    (fun m => by simp [State.reset, BindingTable.reset, MarshalEntry.reset])
    (fun h => by simp [State.reset, HandsetTable.reset])

/-! ## The rows as delivered (R142) -/

theorem deliveredContent_car (c : CarId) : deliveredContent (rowOfCar c) = .car none 63 0 := if_pos c.isLt

theorem deliveredContent_marshal (m : MarshalId) : deliveredContent (rowOfMarshal m) = .marshal none :=
  if_neg (Nat.not_lt.2 (Nat.le_add_right 16 m.val))

theorem deliveredContent_ok (r : RowId) : contentOk r (deliveredContent r) := by
  obtain ⟨c, rfl⟩ | ⟨m, rfl⟩ := row_cases r
  · rw [deliveredContent_car]
    exact ⟨c.isLt, nofun, nofun, by decide, by decide⟩
  · rw [deliveredContent_marshal]
    exact ⟨Nat.le_add_right 16 m.val, nofun, nofun⟩

/-- Every row is VALID as delivered. -/
theorem State.reset_validRow (r : RowId) : State.reset.validRow r = some (deliveredContent r) :=
  State.validRow_rowOf _ r _ (by simp [State.reset, BindStore.delivered, rowOf]) (deliveredContent_ok r)

/-- Settles O60, invariant by invariant, and the rows by the entry they belong to. -/
theorem resetMeetsTheInvariants : Obligations.ResetMeetsTheInvariants :=
  ⟨State.reset_portsWf, State.reset_occupancyOk, State.reset_identitiesOk, State.reset_holdsOk,
    State.reset_lampsAndOffersOk, State.reset_layoutQuiet, State.reset_frameOk,
    fun c => (State.reset_validRow _).trans (congrArg some (deliveredContent_car c)),
    fun m => (State.reset_validRow _).trans (congrArg some (deliveredContent_marshal m))⟩

end Sys2Proof.Machine
end

section
/-! The pairing window and the expiry of offers (R46, R47, R50). -/

namespace Sys2Proof.Machine

/-! ## OPEN PAIRING and CLOSE PAIRING (R46, R47) -/

/-- The window opened, or reopened, for a number of seconds, and told to every port (R46). -/
def State.openWindow (s : State) (seconds : Byte) : State :=
  ({ s with binding := { s.binding with
    window := some (s.now + BitVec.ofNat 32 (seconds.toNat * 1000)) } }).offerAll (.pairing (some seconds))

section
variable {p : PortId} {s : State}

theorem State.taken_openWindow (seconds : Byte) : (s.taken p).openWindow seconds = (s.openWindow seconds).taken p :=
  State.taken_offerAll { s with binding := { s.binding with
    window := some (s.now + BitVec.ofNat 32 (seconds.toNat * 1000)) } } p _

theorem State.taken_closeWindow : (s.taken p).closeWindow = s.closeWindow.taken p :=
  State.taken_offerAll { s with binding := { s.binding with window := none, offers := [] } } p _

section
variable (takes : s.takes p) (rights : (s.ports[p]).raceControl = true)
include takes rights

/-- OPEN PAIRING from race control: the range, then the course, and else the window opens. -/
theorem exec_openPairing (seconds : Byte) :
    exec (.openPairing p seconds) s = .next (
      if ¬ (5 ≤ seconds.toNat ∧ seconds.toNat ≤ 120) then s.answer p (.refused (.range 1))
      else if s.course.course = .countdown then s.answer p (.refused .state)
      else (s.openWindow seconds).answer p (.done [])) := by
  change Host.Outcome.next (s.request p (·.reqOpenPairing p seconds)) = _
  unfold State.reqOpenPairing
  rw [State.request_reserved _ takes rights, ← State.taken_refuse, ← State.taken_refuse, ← State.taken_done,
    ← State.taken_openWindow, inRange_eq]
  simp only [decide_eq_true_eq]
  rfl

/-- CLOSE PAIRING from race control closes an OPEN window, and is answered either way. -/
theorem exec_closePairing :
    exec (.closePairing p) s =
      .next ((if s.binding.window.isSome then s.closeWindow else s).answer p (.done [])) := by
  change Host.Outcome.next (s.request p (·.reqClosePairing p)) = _
  unfold State.reqClosePairing
  rw [State.request_reserved _ takes rights, State.taken_closeWindow]
  simp only [State.taken_fields]
  split <;> rw [State.taken_done]

end
end

/-! ## Expiries (R47, R50) -/

theorem execPairingWindowExpiry_due {s : State} {d : Time} (opened : s.binding.window = some d)
    (due : (s.now - d).toNat < 2 ^ 31) : execPairingWindowExpiry s = .next s.closeWindow :=
  if_pos (dueAt_iff.2 ⟨d, opened, reached_iff.2 due⟩)

/-- Of the offers the car's own is the one that its expiry takes away: no other is the car's. -/
theorem execOfferExpiry_due {s : State} {before after : List Offer} {o : Offer} (ok : s.lampsAndOffersOk)
    (list : s.binding.offers = before ++ o :: after) (due : (s.now - (o.stamp + 4000)).toNat < 2 ^ 31) :
    execOfferExpiry o.car s = .next (s.putOffers (before ++ after)) := by
  have ⟨_, _, _, nodup, _⟩ := ok
  have member : o ∈ s.binding.offers := list ▸ List.mem_append_right _ List.mem_cons_self
  have expired : reached s.now (addMs o.stamp 4000) = true := reached_iff.2 due
  have its_own (q : Offer) (hq : q ∈ s.binding.offers) :
      (!(q.car == o.car && reached s.now (addMs q.stamp 4000))) = (q.car != o.car) := by
    by_cases same : q.car = o.car
    · rw [List.inj_on_of_nodup_map nodup hq member same, expired, Bool.and_true]
      rfl
    · rw [beq_false_of_ne same, bne_iff_ne.2 same]
      rfl
  rw [← State.consume_offer ok list]
  unfold execOfferExpiry State.modOffers
  simp only [List.filter_congr its_own]

/-- Settles O33: the two requests from race control, and the two expiries when they are due. -/
theorem pairingWindowOpensAndCloses : Obligations.PairingWindowOpensAndCloses := by
  intro p n c s
  refine ⟨fun takes rights => ?_, fun d opened due => execPairingWindowExpiry_due opened due, ?_⟩
  · rw [exec_openPairing takes rights, exec_closePairing takes rights]
    refine ⟨fun outside => ?_, fun inside counting => ?_, fun inside idle => ?_, fun closed => ?_, fun opened => ?_⟩
    · rw [if_pos outside]
    · rw [if_neg (not_not.2 inside), if_pos counting]
    · rw [if_neg (not_not.2 inside), if_neg idle]
      rfl
    · rw [closed]
      rfl
    · rw [if_pos (Option.isSome_iff_ne_none.2 opened)]
      rfl
  · rintro before after o ok list rfl due
    exact execOfferExpiry_due ok list due

end Sys2Proof.Machine
end

section
/-! Crossings that place no car (R49, R66 to R69). -/

namespace Sys2Proof.Machine

/-! ## The offer list that a pairing crossing joins (R49) -/

section
variable {o : Offer}

/-- A car that is offered already moves to the tail, with the new sensor and stamp. -/
theorem joinOffers_again {before after : List Offer} {old : Offer}
    (nodup : ((before ++ old :: after).map (·.car)).Nodup) (same : old.car = o.car) :
    joinOffers (before ++ old :: after) o = before ++ after ++ [o] := by
  have offered : (before ++ old :: after).any (·.car == o.car) = true :=
    List.any_eq_true.2 ⟨old, by simp, beq_iff_eq.2 same⟩
  unfold joinOffers
  rw [if_pos offered, ← same, filter_other_cars nodup]

section
variable {l : List Offer} (fresh : ∀ q ∈ l, q.car ≠ o.car)
include fresh

theorem joinOffers_fresh : joinOffers l o = if 4 ≤ l.length then l.tail ++ [o] else l ++ [o] := by
  unfold joinOffers
  exact if_neg (by simpa using fresh)

theorem joinOffers_room (room : l.length ≤ 3) : joinOffers l o = l ++ [o] := by
  rw [joinOffers_fresh fresh, if_neg (by omega)]

theorem joinOffers_full (full : 4 ≤ l.length) : joinOffers l o = l.tail ++ [o] := by
  rw [joinOffers_fresh fresh, if_pos full]

end
end

/-! ## The tests of REPORT CROSSING, in order (R66) -/

section
variable {p : PortId} {sensor car age : Byte} {s : State}

theorem exec_reportCrossing (takes : s.takes p) :
    exec (.reportCrossing p sensor car age) s = .next ((s.taken p).reqReportCrossing p sensor car age) :=
  congrArg Host.Outcome.next (State.request_running p _ takes)

theorem State.reqReportCrossing_layout (layout : s.geo.phase = .layout) :
    s.reqReportCrossing p sensor car age = s.refuse p .phase := if_pos layout

section
variable (run : s.geo.phase = .run)
include run

theorem State.reqReportCrossing_undefined
    (undefined : ∀ n : SensorId, sensor = BitVec.ofNat 8 n.val → s.geo.sensors[n].defined = false) :
    s.reqReportCrossing p sensor car age = s.refuse p (.range 1) := by
  have none_found : ((finOf 128 sensor).filter fun n => s.geo.sensors[n].defined) = none := by
    rw [Option.filter_eq_none_iff]
    intro n hn
    have named : sensor = BitVec.ofNat 8 n.val := by
      rw [← finOf_eq_some.1 hn, BitVec.ofNat_toNat, BitVec.setWidth_eq]
    rw [undefined n named]
    decide
  unfold State.reqReportCrossing
  rw [if_neg (by rw [run]; decide), none_found]

variable {n : SensorId} (defined : s.geo.sensors[n].defined = true)
include defined

/-- A defined sensor's number names that sensor. -/
theorem State.reqReportCrossing_defined :
    s.reqReportCrossing p (BitVec.ofNat 8 n.val) car age =
      if s.geo.sensors[n].owner ≠ p then s.refuse p .notOwner
      else match numOf 16 car with
        | none => s.refuse p (.range 2)
        | some c => match s.geo.sensors[n].kind with
          | .pairing => s.pairingCrossing p n c (s.now - age.setWidth 32)
          | .boundary z => s.trackCrossing p n z none c (s.now - age.setWidth 32)
          | .entry z w => s.trackCrossing p n z (some w) c (s.now - age.setWidth 32) := by
  have found : ((finOf 128 (BitVec.ofNat 8 n.val)).filter fun n => s.geo.sensors[n].defined) = some n := by
    rw [show finOf 128 (BitVec.ofNat 8 n.val) = some n from finOf_idxByte (by decide) n]
    exact Option.filter_eq_some_iff.2 ⟨rfl, defined⟩
  unfold State.reqReportCrossing
  rw [found]
  exact if_neg (by rw [run]; decide)

theorem State.reqReportCrossing_foreign (foreign : s.geo.sensors[n].owner ≠ p) :
    s.reqReportCrossing p (BitVec.ofNat 8 n.val) car age = s.refuse p .notOwner := by
  rw [State.reqReportCrossing_defined run defined, if_pos foreign]

variable (owner : s.geo.sensors[n].owner = p)
include owner

theorem State.reqReportCrossing_noCar (outside : ¬ (1 ≤ car.toNat ∧ car.toNat ≤ 16)) :
    s.reqReportCrossing p (BitVec.ofNat 8 n.val) car age = s.refuse p (.range 2) := by
  rw [State.reqReportCrossing_defined run defined, if_neg (not_not.2 owner), numOf_eq_none.2 outside]

theorem State.reqReportCrossing_pairing (kind : s.geo.sensors[n].kind = .pairing) (c : CarId) :
    s.reqReportCrossing p (BitVec.ofNat 8 n.val) (BitVec.ofNat 8 (c.val + 1)) age =
      s.pairingCrossing p n c (s.now - age.setWidth 32) := by
  rw [State.reqReportCrossing_defined run defined, if_neg (not_not.2 owner),
    show numOf 16 (BitVec.ofNat 8 (c.val + 1)) = some c from numOf_numByte (by decide) c]
  simp only [kind]

/-- A crossing at a sensor of any other kind goes to the Car Tracker. -/
theorem State.reqReportCrossing_tracked (kind : s.geo.sensors[n].kind ≠ .pairing) (c : CarId) :
    ∃ (z : ZoneId) (w : Option SwitchId),
      s.reqReportCrossing p (BitVec.ofNat 8 n.val) (BitVec.ofNat 8 (c.val + 1)) age =
        s.trackCrossing p n z w c (s.now - age.setWidth 32) := by
  rw [State.reqReportCrossing_defined run defined, if_neg (not_not.2 owner),
    show numOf 16 (BitVec.ofNat 8 (c.val + 1)) = some c from numOf_numByte (by decide) c]
  simp only
  cases k : s.geo.sensors[n].kind with
  | pairing => exact absurd k kind
  | boundary z => exact ⟨z, none, rfl⟩
  | entry z w => exact ⟨z, some w, rfl⟩

end
end

/-! ## Crossings at a PAIRING sensor (R49, R67) -/

section
variable {p : PortId} {n : SensorId} {c : CarId} {stamp : Time} {s : State}

theorem State.pairingCrossing_closed (closed : s.binding.window = none) :
    (s.taken p).pairingCrossing p n c stamp = s.answer p (.done [4]) := by
  unfold State.pairingCrossing State.crossingDone
  rw [if_neg (by simp [closed]), State.taken_done]

theorem State.pairingCrossing_opened (opened : s.binding.window ≠ none) {offers : List Offer}
    (joined : joinOffers s.binding.offers (Offer.mk c n stamp) = offers) :
    (s.taken p).pairingCrossing p n c stamp = (s.putOffers offers).answer p (.done [3]) := by
  subst joined
  unfold State.pairingCrossing State.crossingDone
  rw [if_pos (by simpa [Option.isSome_iff_ne_none] using opened), State.taken_modOffers, State.taken_done]
  rfl

/-! ## Crossings that the Car Tracker drops (R68, R69) -/

theorem State.duplicateCrossing_iff : s.duplicateCrossing n c stamp = true ↔
    s.tracker.cars[c].lastSensor = some n ∧ ((stamp - s.tracker.cars[c].lastStamp).toNat < 100 ∨
      (s.tracker.cars[c].lastStamp - stamp).toNat < 100) := by
  unfold State.duplicateCrossing
  rw [Bool.and_eq_true, beq_iff_eq, within100_iff]

theorem State.lateAgainst_placed {pl : Placed} (placed : s.tracker.cars[c].placed = some pl)
    (late : (stamp - pl.entryStamp).toInt < 0) : s.lateAgainst c stamp = some pl.entryStamp := by
  unfold State.lateAgainst
  rw [placed]
  exact Option.filter_eq_some_iff.2 ⟨rfl, earlier_iff.2 late⟩

theorem State.trackCrossing_duplicate (z : ZoneId) (w : Option SwitchId)
    (twice : s.duplicateCrossing n c stamp = true) :
    (s.taken p).trackCrossing p n z w c stamp = s.answer p (.done [1]) :=
  (if_pos twice).trans (State.taken_done ..)

theorem State.trackCrossing_late (z : ZoneId) (w : Option SwitchId) (once : ¬ s.duplicateCrossing n c stamp = true)
    {entryStamp : Time} (late : s.lateAgainst c stamp = some entryStamp) :
    (s.taken p).trackCrossing p n z w c stamp =
      (s.offerRaceControl (.lateCrossing c n p (min (entryStamp - stamp).toNat 65535))).answer p (.done [2]) := by
  have late_taken : (s.taken p).lateAgainst c stamp = some entryStamp := late
  unfold State.trackCrossing State.crossingDone
  rw [if_neg (show ¬ (s.taken p).duplicateCrossing n c stamp = true from once), late_taken]
  simp only [State.taken_offerRaceControl, State.taken_done]

end

/-- Settles O35: the tests of R66 in order, then the sensor's kind, and the window's or the car's own state. -/
theorem crossingsThatPlaceNoCar : Obligations.CrossingsThatPlaceNoCar := by
  intro p sensor car age s takes
  simp only
  rw [exec_reportCrossing takes]
  refine ⟨fun layout => ?_, fun run undefined => ?_, ?_⟩
  · rw [State.reqReportCrossing_layout (by simpa using layout), State.taken_refuse]
  · rw [State.reqReportCrossing_undefined (by simpa using run) (by simpa using undefined), State.taken_refuse]
  rintro n run rfl defined
  replace run : (s.taken p).geo.phase = .run := run
  replace defined : (s.taken p).geo.sensors[n].defined = true := defined
  refine ⟨fun foreign => ?_, fun owner outside => ?_, ?_⟩
  · rw [State.reqReportCrossing_foreign run defined foreign, State.taken_refuse]
  · rw [State.reqReportCrossing_noCar run defined owner outside, State.taken_refuse]
  rintro c owner rfl
  refine ⟨fun kind => ?_, fun kind => ?_⟩
  · rw [State.reqReportCrossing_pairing run defined owner kind]
    refine ⟨fun closed => congrArg _ (State.pairingCrossing_closed closed),
      fun opened => ⟨?_, fun fresh => ⟨?_, ?_⟩⟩⟩
    · rintro before after o ⟨-, -, -, nodup, -⟩ list rfl
      rw [list] at nodup
      exact congrArg _ (State.pairingCrossing_opened opened (list ▸ joinOffers_again nodup rfl))
    · exact fun room => congrArg _ (State.pairingCrossing_opened opened (joinOffers_room fresh room))
    · intro head rest list full
      rw [list] at fresh
      exact congrArg _ (State.pairingCrossing_opened opened
        (list ▸ joinOffers_full fresh (Nat.succ_le_succ full)))
  · obtain ⟨z, w, tracked⟩ := State.reqReportCrossing_tracked (age := age) run defined owner kind c
    rw [tracked]
    refine ⟨fun twice => congrArg _ (State.trackCrossing_duplicate z w (State.duplicateCrossing_iff.2 twice)),
      fun pl once placed late => congrArg _ (State.trackCrossing_late z w (mt State.duplicateCrossing_iff.1 once)
        (State.lateAgainst_placed placed late))⟩

end Sys2Proof.Machine
end

section
/-! The commands that leave the Car Tracker: no car moves and no list changes (R64, R65). -/

namespace Sys2Proof.Machine

-- One after the other, the proofs need no thread each.
set_option Elab.async false

/-! ## Replies and notices -/

theorem State.portsOnly.tracker {s t : State} (h : s.portsOnly t) : t.tracker = s.tracker := by
  rw [h]

@[simp] theorem State.refuseRange_tracker (s : State) (p : PortId) (places : List Byte) :
    (s.refuseRange p places).tracker = s.tracker := by
  unfold State.refuseRange
  split <;> simp

/-- A reserved request is refused, or it leaves the tracker as what it carries out does. -/
theorem State.reserved_tracker {s : State} {p : PortId} {op : State → State} (h : (op s).tracker = s.tracker) :
    (s.reserved p op).tracker = s.tracker := by
  unfold State.reserved
  split
  · exact h
  · exact (s.modPort_portsOnly p _).tracker

/-! ## Ports, staging and applies (R152 to R163) -/

theorem State.reqTake_tracker (s : State) (p : PortId) : (s.reqTake p).tracker = s.tracker := by
  unfold State.reqTake
  split <;> simp

theorem State.reqPortSet_tracker (s : State) (p : PortId) (attentionLevel shedLevel : Byte) :
    (s.reqPortSet p attentionLevel shedLevel).tracker = s.tracker := by
  unfold State.reqPortSet
  split <;> simp

theorem State.reqSelect_tracker (s : State) (p : PortId) (table index : Byte) :
    (s.reqSelect p table index).tracker = s.tracker := by
  unfold State.reqSelect
  split <;> simp

theorem State.reqFetch_tracker (s : State) (p : PortId) : (s.reqFetch p).tracker = s.tracker := by
  unfold State.reqFetch
  split <;> simp

@[simp] theorem State.applyDone_tracker (s : State) (p : PortId) (ref : RecordRef) :
    (s.applyDone p ref).tracker = s.tracker := (s.modPort_portsOnly p _).tracker

@[simp] theorem State.applyZone_tracker (s : State) (p : PortId) (z : ZoneId) (image : List Byte) :
    (s.applyZone p z image).tracker = s.tracker := by
  unfold State.applyZone
  split <;> simp

@[simp] theorem State.applySwitch_tracker (s : State) (p : PortId) (w : SwitchId) (image : List Byte) :
    (s.applySwitch p w image).tracker = s.tracker := by
  unfold State.applySwitch
  split <;> simp

@[simp] theorem State.applySensor_tracker (s : State) (p : PortId) (n : SensorId) (image : List Byte) :
    (s.applySensor p n image).tracker = s.tracker := by
  unfold State.applySensor
  split <;> simp

@[simp] theorem State.applySettings_tracker (s : State) (p : PortId) (image : List Byte) :
    (s.applySettings p image).tracker = s.tracker := by
  unfold State.applySettings
  split <;> simp

@[simp] theorem State.applyMarshal_tracker (s : State) (p : PortId) (m : MarshalId) (image : List Byte) :
    (s.applyMarshal p m image).tracker = s.tracker := by
  unfold State.applyMarshal
  simp only
  split <;> simp

@[simp] theorem State.applyBinding_tracker (s : State) (p : PortId) (c : CarId) (image : List Byte) :
    (s.applyBinding p c image).tracker = s.tracker := by
  unfold State.applyBinding
  split
  · simp
  · split
    · simp
    · split <;> simp

@[simp] theorem State.applyRecord_tracker (s : State) (p : PortId) (ref : RecordRef) (image : List Byte) :
    (s.applyRecord p ref image).tracker = s.tracker := by
  cases ref <;> simp [State.applyRecord]

@[simp] theorem State.applyStaged_tracker (s : State) (p : PortId) (st : Staging) :
    (s.applyStaged p st).tracker = s.tracker := by
  unfold State.applyStaged
  simp only
  split
  · simp
  · split
    · simp
    · split
      · simp
      · split <;> simp

theorem State.reqApply_tracker (s : State) (p : PortId) : (s.reqApply p).tracker = s.tracker := by
  unfold State.reqApply
  split <;> simp

theorem State.reqPut_tracker (s : State) (p : PortId) (values : List Byte) : (s.reqPut p values).tracker = s.tracker := by
  unfold State.reqPut
  split
  · simp
  · simp only
    split
    · simp
    · split
      · simp
      · simp
      · split <;> simp

/-! ## The course, the pit, the locks and the layout (R12, R115 to R125) -/

@[simp] theorem State.toCaution_tracker (s : State) (cause : CourseCause) : (s.toCaution cause).tracker = s.tracker := by
  simp [State.toCaution]

@[simp] theorem State.toStop_tracker (s : State) (cause : CourseCause) : (s.toStop cause).tracker = s.tracker := by
  simp [State.toStop]

theorem State.reqStart_tracker (s : State) (p : PortId) : (s.reqStart p).tracker = s.tracker :=
  State.reserved_tracker <| by
    split
    · simp
    · split <;> simp

theorem State.reqStop_tracker (s : State) (p : PortId) : (s.reqStop p).tracker = s.tracker :=
  State.reserved_tracker <| by
    split <;> simp

theorem State.reqCaution_tracker (s : State) (p : PortId) : (s.reqCaution p).tracker = s.tracker :=
  State.reserved_tracker <| by
    split <;> simp

theorem State.reqGreen_tracker (s : State) (p : PortId) : (s.reqGreen p).tracker = s.tracker :=
  State.reserved_tracker <| by
    split <;> simp

@[simp] theorem State.marshalEdge_tracker (s : State) (i : Ident) (live : Bool) (code : LaneCode) (station : PortId) :
    (s.marshalEdge i live code station).tracker = s.tracker := by
  unfold State.marshalEdge
  simp only
  split
  · simp
  · split <;> simp

theorem State.reqPit_tracker (s : State) (p : PortId) (opened : Bool) : (s.reqPit p opened).tracker = s.tracker :=
  State.reserved_tracker <| by
    split <;> simp

theorem State.reqZoneLock_tracker (s : State) (p : PortId) (zone lock : Byte) :
    (s.reqZoneLock p zone lock).tracker = s.tracker :=
  State.reserved_tracker <| by
    split
    · split
      · simp
      · simp only
        split <;> simp
    · simp

theorem State.reqLayoutRun_tracker (s : State) (p : PortId) : (s.reqLayoutRun p).tracker = s.tracker :=
  State.reserved_tracker <| by
    split
    · simp
    · split <;> simp

theorem State.reqSwitch_tracker (s : State) (p : PortId) (r : SwitchRequest) (switch : Byte) :
    (s.reqSwitch p r switch).tracker = s.tracker :=
  State.reserved_tracker <| by
    split
    · simp
    · split <;> simp

theorem State.clearSwitch_tracker (s : State) (w : SwitchId) : (s.clearSwitch w).tracker = s.tracker := by
  unfold State.clearSwitch
  split <;> simp

theorem execLampExpiry_tracker (s : State) : ∃ t : State, execLampExpiry s = .next t ∧ t.tracker = s.tracker := by
  unfold execLampExpiry
  split
  · split
    · split
      · exact ⟨_, rfl, by simp⟩
      · exact ⟨_, rfl, rfl⟩
    · exact ⟨_, rfl, rfl⟩
  · exact ⟨_, rfl, rfl⟩

/-! ## Pairing (R46 to R59) -/

theorem State.reqOpenPairing_tracker (s : State) (p : PortId) (seconds : Byte) :
    (s.reqOpenPairing p seconds).tracker = s.tracker :=
  State.reserved_tracker <| by
    split
    · simp
    · split <;> simp

theorem State.reqClosePairing_tracker (s : State) (p : PortId) : (s.reqClosePairing p).tracker = s.tracker :=
  State.reserved_tracker <| by
    split <;> simp

theorem State.reqRelease_tracker (s : State) (p : PortId) (car : Byte) : (s.reqRelease p car).tracker = s.tracker :=
  State.reserved_tracker <| by
    split
    · simp
    · split <;> simp

@[simp] theorem State.announcePair_tracker (s : State) (station : PortId) (i : Ident) (result : PairResult)
    (c : Option CarId) : (s.announcePair station i result c).tracker = s.tracker :=
  (s.offerWhere_portsOnly ..).tracker

@[simp] theorem State.pairEdge_tracker (s : State) (i : Ident) (marshal : Bool) (station : PortId) (strength : BitVec 4) :
    (s.pairEdge i marshal station strength).tracker = s.tracker := by
  unfold State.pairEdge
  split
  · simp
  · split
    · rfl
    · split
      · simp
      · split
        · simp
        · split <;> simp

theorem execPairingWindowExpiry_tracker (s : State) :
    ∃ t : State, execPairingWindowExpiry s = .next t ∧ t.tracker = s.tracker := by
  unfold execPairingWindowExpiry
  split
  · exact ⟨_, rfl, by simp⟩
  · exact ⟨_, rfl, rfl⟩

/-! ## Handset reports and expiries (R22 to R36) -/

@[simp] theorem State.laneEdge_tracker (s : State) (i : Ident) (code : LaneCode) :
    (s.laneEdge i code).tracker = s.tracker := by
  unfold State.laneEdge
  split
  · split <;> rfl
  · rfl

@[simp] theorem State.handEdge_tracker (s : State) (r : Handset) (station : PortId) (strength : BitVec 4) :
    (s.handEdge r station strength).tracker = s.tracker := by
  unfold State.handEdge
  split
  · simp
  · split
    · split <;> simp
    · rfl

@[simp] theorem State.moveLink_tracker (s : State) (h : HandsetId) (r : Handset) (link : LinkState) :
    (s.moveLink h r link).tracker = s.tracker := by
  unfold State.moveLink
  split
  · rfl
  · simp only
    split <;> simp

@[simp] theorem State.batteryStep_tracker (s : State) (r : Handset) (wasLow : Bool) :
    (s.batteryStep r wasLow).tracker = s.tracker := by
  unfold State.batteryStep
  split <;> simp

@[simp] theorem State.validate_tracker (s : State) (h : HandsetId) (rep : Report) (p : PortId) :
    (s.validate h rep p).tracker = s.tracker := by
  unfold State.validate
  split
  · simp only
    split <;> simp
  · rfl

@[simp] theorem State.reportDone_tracker (s : State) (p : PortId) (outcome : Byte) :
    (s.reportDone p outcome).tracker = s.tracker := (s.modPort_portsOnly p _).tracker

@[simp] theorem State.acceptReport_tracker (s : State) (p : PortId) (h : HandsetId) (old : Handset) (rep : Report)
    (link : LinkState) : (s.acceptReport p h old rep link).tracker = s.tracker := by
  simp [State.acceptReport]

theorem State.firstReport_tracker (s : State) (p : PortId) (rep : Report) :
    (s.firstReport p rep).tracker = s.tracker := by
  unfold State.firstReport
  split
  · simp
  · split <;> simp

theorem State.knownReport_tracker (s : State) (p : PortId) (h : HandsetId) (r : Handset) (rep : Report) :
    (s.knownReport p h r rep).tracker = s.tracker := by
  unfold State.knownReport
  simp only
  split
  case h_1 | h_2 => simp
  case h_3 | h_4 =>
    split
    · simp
    · split <;> simp

theorem State.reqReportHandset_tracker (s : State) (p : PortId) (identity : Ident)
    (count throttle code battery strength : Byte) :
    (s.reqReportHandset p identity count throttle code battery strength).tracker = s.tracker := by
  unfold State.reqReportHandset State.filterReport
  simp only
  split
  · split
    · next h _ =>
      cases s.handsets.records[h] with
      | none => rfl
      | some r => exact s.knownReport_tracker ..
    · exact s.firstReport_tracker ..
  · exact s.refuseRange_tracker ..

theorem execStaleExpiry_tracker (h : HandsetId) (s : State) :
    ∃ t : State, execStaleExpiry h s = .next t ∧ t.tracker = s.tracker := by
  unfold execStaleExpiry
  split
  · simp only
    split
    · exact ⟨_, rfl, by simp⟩
    · exact ⟨_, rfl, rfl⟩
  · exact ⟨_, rfl, rfl⟩

@[simp] theorem State.handLost_tracker (s : State) (r : Handset) : (s.handLost r).tracker = s.tracker := by
  unfold State.handLost
  cases r.boundCar <;> simp

theorem execHandsetLostExpiry_tracker (h : HandsetId) (s : State) :
    ∃ t : State, execHandsetLostExpiry h s = .next t ∧ t.tracker = s.tracker := by
  unfold execHandsetLostExpiry
  split
  · simp only
    split
    · exact ⟨_, rfl, by simp⟩
    · exact ⟨_, rfl, rfl⟩
  · exact ⟨_, rfl, rfl⟩

/-! ## The Bind Store (R143 to R149) -/

@[simp] theorem State.chooseCommit_tracker (s : State) : s.chooseCommit.tracker = s.tracker := by
  unfold State.chooseCommit
  cases s.autoChoice <;> simp

theorem State.reqStoreSave_tracker (s : State) (p : PortId) (row : Byte) : (s.reqStoreSave p row).tracker = s.tracker :=
  State.reserved_tracker <| by
    split
    · simp
    · split
      · simp
      · split <;> simp

@[simp] theorem State.setMark_tracker (s : State) (r : RowId) (mark : Mark) : (s.setMark r mark).tracker = s.tracker := by
  rw [State.setMark_eq]

@[simp] theorem State.storeDone_tracker (s : State) (c : Commit) (outcome : StoreOutcome) :
    (s.storeDone c outcome).tracker = s.tracker := by
  unfold State.storeDone
  split <;> simp

theorem State.completeCommit_tracker (s : State) (c : Commit) : (s.completeCommit c).tracker = s.tracker := by
  unfold State.completeCommit
  simp only [State.storeDone_tracker, State.setWriter_fields]
  split <;> simp

theorem State.cutCommit_tracker (s : State) (c : Commit) : (s.cutCommit c).tracker = s.tracker := by
  unfold State.cutCommit
  split <;> simp

theorem execWriterStepEnd_tracker (s : State) : ∃ t : State, execWriterStepEnd s = .next t ∧ t.tracker = s.tracker := by
  unfold execWriterStepEnd
  split
  · split
    · exact ⟨_, rfl, by simp⟩
    · exact ⟨_, rfl, rfl⟩
  all_goals exact ⟨_, rfl, rfl⟩

theorem execCommitCompletion_tracker (s : State) :
    ∃ t : State, execCommitCompletion s = .next t ∧ t.tracker = s.tracker := by
  unfold execCommitCompletion
  split
  · split
    · exact ⟨_, rfl, s.completeCommit_tracker _⟩
    · exact ⟨_, rfl, rfl⟩
  all_goals exact ⟨_, rfl, rfl⟩

theorem execStweFall_tracker (s : State) : ∃ t : State, execStweFall s = .next t ∧ t.tracker = s.tracker := by
  unfold execStweFall
  split
  · refine ⟨_, rfl, ?_⟩
    cases s.store.writer.commit with
    | none => rfl
    | some c => exact State.cutCommit_tracker _ c
  · exact ⟨_, rfl, rfl⟩

theorem State.restoreMarshal_tracker (s : State) (m : MarshalId) : (s.restoreMarshal m).tracker = s.tracker := by
  unfold State.restoreMarshal
  simp only
  split <;> simp

theorem State.restoreCar_tracker (s : State) (c : CarId) : (s.restoreCar c).tracker = s.tracker := by
  unfold State.restoreCar
  simp only
  split <;> simp

/-- A fold of moves that leave the tracker leaves it. -/
theorem State.foldl_tracker {α : Type} {f : State → α → State} (h : ∀ (u : State) (a : α), (f u a).tracker = u.tracker)
    (s : State) (l : List α) : (l.foldl f s).tracker = s.tracker := by
  induction l generalizing s with
  | nil => rfl
  | cons a as ih => exact (ih (f s a)).trans (h s a)

theorem State.restoreRows_tracker (s : State) : s.restoreRows.tracker = s.tracker :=
  (State.foldl_tracker State.restoreCar_tracker ..).trans (State.foldl_tracker State.restoreMarshal_tracker ..)

theorem execRestore_tracker (s : State) : ∃ t : State, execRestore s = .next t ∧ t.tracker = s.tracker := by
  unfold execRestore
  split
  · have rows := s.restoreRows_tracker
    simp only
    generalize s.restoreRows = u at rows
    exact ⟨_, rfl, rows⟩
  · exact ⟨_, rfl, rfl⟩

theorem execRestoreEnd_tracker (s : State) : ∃ t : State, execRestoreEnd s = .next t ∧ t.tracker = s.tracker := by
  unfold execRestoreEnd
  split
  · exact ⟨_, rfl, by simp⟩
  · exact ⟨_, rfl, rfl⟩

/-! ## Intents and caps (R84, R107) -/

theorem execIntentExpiry_tracker (c : CarId) (s : State) :
    ∃ t : State, execIntentExpiry c s = .next t ∧ t.tracker = s.tracker := by
  unfold execIntentExpiry
  split <;> exact ⟨_, rfl, rfl⟩

theorem execConflictCapEnd_tracker (c : CarId) (s : State) :
    ∃ t : State, execConflictCapEnd c s = .next t ∧ t.tracker = s.tracker := by
  unfold execConflictCapEnd
  split <;> exact ⟨_, rfl, rfl⟩

/-! ## The rail frame (R131 to R139) -/

theorem State.bitPeriod_tracker (s : State) : s.bitPeriod.tracker = s.tracker := by
  obtain ⟨_, -, -, -, -, e⟩ | ⟨-, e⟩ := s.bitPeriod_cases <;> rw [e]

/-- A part of the frame is sent when it is due, and else nothing happens. -/
theorem sendPart_ite_tracker (due : Bool) (s : State) (position : Fin 200) (bits : List Bool) (win : Bool) :
    ∃ t : State, (if due then Host.Outcome.next (s.sendPart position bits win) else .next s :
      Host.Outcome State Fault Refusal) = .next t ∧ t.tracker = s.tracker := by
  cases due <;> exact ⟨_, rfl, rfl⟩

theorem execRailFrameStart_tracker (s : State) : ∃ t : State, execRailFrameStart s = .next t ∧ t.tracker = s.tracker := by
  unfold execRailFrameStart
  split
  · exact ⟨_, rfl, by simp⟩
  · exact ⟨_, rfl, rfl⟩

end Sys2Proof.Machine
end

section
/-! Every step keeps the position records and the occupancy lists in step: the commands that move cars do it by moves, undos
and grants, and every other command leaves the Car Tracker (R64, R65). -/

namespace Sys2Proof.Machine

-- One after the other, the proofs need no thread each.
set_option Elab.async false

/-! ## Position records rewritten where they stand -/

/-- What the occupancy lists mirror of a position record: the zone, the entry stamp and the way. -/
def Placed.spot (pl : Placed) : ZoneId × Time × Way := (pl.zone, pl.entryStamp, pl.way)

/-- Records and lists stay in step while the lists and the spot of every car stay. -/
theorem State.occupancyOk_of_spots {s t : State} (ok : s.occupancyOk) (lists : t.tracker.lists = s.tracker.lists)
    (spots : ∀ k : CarId, t.tracker.cars[k].placed.map Placed.spot = s.tracker.cars[k].placed.map Placed.spot) :
    t.occupancyOk := by
  obtain ⟨recorded, nodup, listed⟩ := ok
  unfold State.occupancyOk
  rw [lists]
  refine ⟨fun z o ho => ?_, nodup, fun k pl hk => ?_⟩
  · obtain ⟨pl, hp, rfl, stamp, way⟩ := recorded z o ho
    have spot := spots o.car
    rw [hp] at spot
    obtain ⟨q, hq, e⟩ := Option.map_eq_some_iff.1 spot
    obtain ⟨zone', rest⟩ := Prod.mk.inj e
    obtain ⟨stamp', way'⟩ := Prod.mk.inj rest
    exact ⟨q, hq, zone', stamp'.trans stamp, way'.trans way⟩
  · have spot := spots k
    rw [hk] at spot
    obtain ⟨q, hq, e⟩ := Option.map_eq_some_iff.1 spot.symm
    obtain ⟨zone', -⟩ := Prod.mk.inj e
    obtain ⟨o, ho, hc⟩ := listed k q hq
    exact ⟨o, by simpa only [zone'] using ho, hc⟩

/-- A car's record rewritten on its spot. -/
theorem State.putCar_occupancyOk {s : State} (ok : s.occupancyOk) {c : CarId} {r : CarRecord}
    (spot : r.placed.map Placed.spot = s.tracker.cars[c].placed.map Placed.spot) : (s.putCar c r).occupancyOk := by
  refine State.occupancyOk_of_spots ok rfl fun k => ?_
  simp only [State.putCar_fields, modAt_get]
  split
  · next same => rw [same, spot]
  · rfl

theorem execStall_occupancyOk {s : State} (ok : s.occupancyOk) (c : CarId) :
    ∃ t : State, execStall c s = .next t ∧ t.occupancyOk := by
  unfold execStall
  split
  · next pl placed =>
    split
    · refine ⟨_, rfl, State.occupancyOk_of_spots ok rfl fun k => ?_⟩
      simp only [State.offerRaceControl_fields, modAt_get]
      split
      · next same =>
        subst same
        rw [placed]
        rfl
      · rfl
    · exact ⟨_, rfl, ok⟩
  · exact ⟨_, rfl, ok⟩

theorem State.done_occupancyOk {s : State} (ok : s.occupancyOk) (p : PortId) (l : List Byte) : (s.done p l).occupancyOk :=
  State.occupancyOk_of_tracker ok (s.modPort_portsOnly p _).tracker

theorem State.refuse_occupancyOk {s : State} (ok : s.occupancyOk) (p : PortId) (r : Reason) :
    (s.refuse p r).occupancyOk :=
  State.occupancyOk_of_tracker ok (s.modPort_portsOnly p _).tracker

theorem State.clearPositions_occupancyOk (s : State) : s.clearPositions.occupancyOk :=
  State.occupancyOk_of_empty (fun c => by rw [State.clearPositions_cars]) s.clearPositions_lists

theorem State.edited_occupancyOk (s : State) : s.edited.occupancyOk :=
  State.occupancyOk_of_empty (fun c => by rw [State.edited_cars]) s.edited_lists

/-- A reserved request is refused or carried out (R114). -/
theorem State.reserved_occupancyOk {s : State} (ok : s.occupancyOk) {p : PortId} {op : State → State}
    (h : (op s).occupancyOk) : (s.reserved p op).occupancyOk := by
  unfold State.reserved
  split
  · exact h
  · exact State.refuse_occupancyOk ok p _

/-! ## Decisions (R86 to R93) -/

section
variable {s : State} (ok : s.occupancyOk)
include ok

/-- A denial moves no car, and a grant makes its move. -/
theorem State.decidePassage_occupancyOk (c : CarId) (w : SwitchId) : (s.decidePassage c w).occupancyOk := by
  unfold State.decidePassage
  split
  · exact State.grant_occupancyOk ok c w
  · refine State.occupancyOk_of_tracker ok ?_
    split <;> simp

/-- A hold moves no car, and a grant makes its move. -/
theorem State.decideExit_occupancyOk (c : CarId) (w : SwitchId) : (s.decideExit c w).occupancyOk := by
  have held : ∀ reason : DecisionReason, (s.holdCar c w reason).occupancyOk := fun reason =>
    State.occupancyOk_of_tracker ok (by simp)
  unfold State.decideExit
  split
  · split
    · exact State.grant_occupancyOk ok c w
    · exact held _
  · exact held _

theorem State.decideEntry_occupancyOk (c : CarId) (w : SwitchId) : (s.decideEntry c w).occupancyOk := by
  unfold State.decideEntry
  simp only
  split
  · exact State.decideExit_occupancyOk ok c w
  · split
    · exact State.decidePassage_occupancyOk ok c w
    · split
      · exact State.occupancyOk_of_tracker ok (by simp)
      · exact ok

theorem State.recheckHead_occupancyOk (w : SwitchId) (head : Hold) : (s.recheckHead w head).occupancyOk := by
  unfold State.recheckHead
  split
  · exact State.grant_occupancyOk (State.occupancyOk_of_tracker ok (by simp)) head.car w
  · split
    · exact ok
    · exact State.occupancyOk_of_tracker ok (by simp)

theorem execPitExitRecheck_occupancyOk (w : SwitchId) :
    ∃ t : State, execPitExitRecheck w s = .next t ∧ t.occupancyOk := by
  unfold execPitExitRecheck
  split
  · split
    · exact ⟨_, rfl, State.occupancyOk_of_tracker (State.recheckHead_occupancyOk ok w _) rfl⟩
    · exact ⟨_, rfl, ok⟩
  all_goals exact ⟨_, rfl, ok⟩

/-! ## Crossings (R66 to R71) -/

theorem State.placeCrossing_occupancyOk (n : SensorId) (z : ZoneId) (c : CarId) (stamp : Time) :
    (s.placeCrossing n z c stamp).occupancyOk := by
  have moved := State.moveCar_occupancyOk ok c z stamp .sensor
  rw [State.placeCrossing_eq]
  generalize s.moveCar c z stamp .sensor = t at moved
  exact State.putCar_occupancyOk moved rfl

/-- Of what a placed crossing hands on, the decision alone may move a car. -/
theorem State.handOn_occupancyOk (n : SensorId) (z : ZoneId) (w : Option SwitchId) (c : CarId) (stamp : Time) :
    (s.handOn n z w c stamp).occupancyOk := by
  have handed : (s.handOver n z c stamp).occupancyOk := State.occupancyOk_of_tracker ok (by simp)
  unfold State.handOn
  generalize s.handOver n z c stamp = t at handed
  cases w with
  | none => exact handed
  | some w => exact State.decideEntry_occupancyOk handed c w

theorem State.trackCrossing_occupancyOk (p : PortId) (n : SensorId) (z : ZoneId) (w : Option SwitchId) (c : CarId)
    (stamp : Time) : (s.trackCrossing p n z w c stamp).occupancyOk := by
  unfold State.trackCrossing State.crossingDone
  split
  · exact State.done_occupancyOk ok ..
  · split
    · exact State.done_occupancyOk (State.occupancyOk_of_tracker ok (by simp)) ..
    · exact State.done_occupancyOk
        (State.handOn_occupancyOk (State.placeCrossing_occupancyOk ok n z c stamp) n z w c stamp) ..

theorem State.reqReportCrossing_occupancyOk (p : PortId) (sensor car age : Byte) :
    (s.reqReportCrossing p sensor car age).occupancyOk := by
  unfold State.reqReportCrossing
  split
  · exact State.refuse_occupancyOk ok ..
  · split
    · exact State.refuse_occupancyOk ok ..
    · split
      · exact State.refuse_occupancyOk ok ..
      · split
        · exact State.refuse_occupancyOk ok ..
        · simp only
          split
          · unfold State.pairingCrossing State.crossingDone
            split
            · exact State.occupancyOk_of_tracker ok (by simp)
            · exact State.done_occupancyOk ok ..
          · exact State.trackCrossing_occupancyOk ok ..
          · exact State.trackCrossing_occupancyOk ok ..

/-! ## The ends of passages (R97 to R105) -/

theorem State.takeThrown_occupancyOk (p : PortId) (w : SwitchId) : (s.takeThrown p w).occupancyOk := by
  unfold State.takeThrown
  split
  case h_1 => exact State.done_occupancyOk (State.occupancyOk_of_tracker ok (by simp)) ..
  all_goals exact State.refuse_occupancyOk ok ..

/-- Of the ends of a passage, the one in PENDING may undo the grant. -/
theorem State.takeReturned_occupancyOk (p : PortId) (w : SwitchId) : (s.takeReturned p w).occupancyOk := by
  unfold State.takeReturned
  split
  case h_1 => exact State.done_occupancyOk (State.closePending_occupancyOk ok ..) ..
  case h_2 | h_3 => exact State.done_occupancyOk (State.occupancyOk_of_tracker ok (by simp)) ..
  all_goals exact State.refuse_occupancyOk ok ..

theorem State.announceFault_occupancyOk (w : SwitchId) (cause : FaultCause) (left : RunState) :
    (s.announceFault w cause left).occupancyOk := State.occupancyOk_of_tracker ok (by simp)

theorem State.takeJammed_occupancyOk (p : PortId) (w : SwitchId) (position : Position) :
    (s.takeJammed p w position).occupancyOk := by
  unfold State.takeJammed
  simp only
  refine State.done_occupancyOk (State.announceFault_occupancyOk ?_ ..) ..
  split
  case h_1 => exact State.closePending_occupancyOk ok ..
  all_goals exact State.occupancyOk_of_tracker ok (by simp)

theorem State.reqReportSwitch_occupancyOk (p : PortId) (switch kind position : Byte) :
    (s.reqReportSwitch p switch kind position).occupancyOk := by
  unfold State.reqReportSwitch
  split
  · exact State.refuse_occupancyOk ok ..
  · split
    · exact State.refuse_occupancyOk ok ..
    · split
      · exact State.refuse_occupancyOk ok ..
      · split
        · exact State.takeThrown_occupancyOk ok ..
        · split
          · exact State.takeReturned_occupancyOk ok ..
          · split
            · cases positionOf position with
              | none => exact State.refuse_occupancyOk ok ..
              | some ps => exact State.takeJammed_occupancyOk ok ..
            · exact State.refuse_occupancyOk ok ..

theorem execActuationDeadline_occupancyOk (w : SwitchId) :
    ∃ t : State, execActuationDeadline w s = .next t ∧ t.occupancyOk := by
  unfold execActuationDeadline
  split
  · split
    · exact ⟨_, rfl, State.announceFault_occupancyOk (State.closePending_occupancyOk ok ..) ..⟩
    · exact ⟨_, rfl, ok⟩
  all_goals exact ⟨_, rfl, ok⟩

theorem execHoldDeadline_occupancyOk (w : SwitchId) : ∃ t : State, execHoldDeadline w s = .next t ∧ t.occupancyOk := by
  unfold execHoldDeadline
  split
  · split
    · exact ⟨_, rfl, State.occupancyOk_of_tracker ok (by simp)⟩
    · exact ⟨_, rfl, ok⟩
  all_goals exact ⟨_, rfl, ok⟩

theorem execRestoringActuationDeadline_occupancyOk (w : SwitchId) :
    ∃ t : State, execRestoringActuationDeadline w s = .next t ∧ t.occupancyOk := by
  unfold execRestoringActuationDeadline
  split
  · split
    · exact ⟨_, rfl, State.announceFault_occupancyOk (State.occupancyOk_of_tracker ok (by simp)) ..⟩
    · exact ⟨_, rfl, ok⟩
  all_goals exact ⟨_, rfl, ok⟩

/-! ## Track clear and layout edit (R79, R80) -/

theorem State.reqTrackClear_occupancyOk (p : PortId) : (s.reqTrackClear p).occupancyOk :=
  State.reserved_occupancyOk ok <| by
    split
    · exact State.refuse_occupancyOk ok ..
    · have cleared : ((List.finRange 32).foldl State.clearSwitch s.clearPositions.clearLane).occupancyOk :=
        State.occupancyOk_of_tracker s.clearPositions_occupancyOk
          ((State.foldl_tracker State.clearSwitch_tracker ..).trans (by simp))
      simp only
      generalize (List.finRange 32).foldl State.clearSwitch s.clearPositions.clearLane = u at cleared
      exact State.done_occupancyOk (State.occupancyOk_of_tracker cleared (by simp)) ..

theorem State.reqLayoutEdit_occupancyOk (p : PortId) : (s.reqLayoutEdit p).occupancyOk :=
  State.reserved_occupancyOk ok <| by
    split
    · exact State.refuse_occupancyOk ok ..
    · split
      · exact State.refuse_occupancyOk ok ..
      · split
        · exact State.refuse_occupancyOk ok ..
        · exact State.done_occupancyOk (State.occupancyOk_of_tracker s.edited_occupancyOk (by simp [State.edited])) ..

/-! ## Every command -/

theorem State.carryOut_occupancyOk (p : PortId) (name : RequestName) (payload : List Byte) :
    (s.carryOut p name payload).occupancyOk := by
  have stays : ∀ {t : State}, t.tracker = s.tracker → t.occupancyOk := State.occupancyOk_of_tracker ok
  cases name with
  | reportCrossing => exact State.reqReportCrossing_occupancyOk ok ..
  | reportSwitch => exact State.reqReportSwitch_occupancyOk ok ..
  | trackClear => exact State.reqTrackClear_occupancyOk ok ..
  | layoutEdit => exact State.reqLayoutEdit_occupancyOk ok ..
  | poll | portReset => exact stays (s.modPort_portsOnly p _).tracker
  | portStatus => exact stays ((s.modPort_portsOnly p _).trans (State.modPort_portsOnly ..)).tracker
  | take => exact stays (s.reqTake_tracker ..)
  | portSet => exact stays (s.reqPortSet_tracker ..)
  | select => exact stays (s.reqSelect_tracker ..)
  | fetch => exact stays (s.reqFetch_tracker ..)
  | put => exact stays (s.reqPut_tracker ..)
  | apply => exact stays (s.reqApply_tracker ..)
  | reportHandset => exact stays (s.reqReportHandset_tracker ..)
  | start => exact stays (s.reqStart_tracker ..)
  | stop => exact stays (s.reqStop_tracker ..)
  | caution => exact stays (s.reqCaution_tracker ..)
  | green => exact stays (s.reqGreen_tracker ..)
  | pitOpen | pitClose => exact stays (s.reqPit_tracker ..)
  | zoneLock => exact stays (s.reqZoneLock_tracker ..)
  | switchDisable | switchEnable | switchClear => exact stays (s.reqSwitch_tracker ..)
  | layoutRun => exact stays (s.reqLayoutRun_tracker ..)
  | openPairing => exact stays (s.reqOpenPairing_tracker ..)
  | closePairing => exact stays (s.reqClosePairing_tracker ..)
  | release => exact stays (s.reqRelease_tracker ..)
  | storeSave => exact stays (s.reqStoreSave_tracker ..)

theorem State.answers.occupancyOk {t : State} {p : PortId} (h : s.answers p t) : t.occupancyOk := by
  obtain ports | ⟨name, payload, rfl⟩ := h
  · exact State.occupancyOk_of_tracker ok ports.tracker
  · exact State.carryOut_occupancyOk (State.occupancyOk_of_tracker (t := s.taken p) ok rfl) p name payload

theorem exec_requestOf_occupancyOk {c : Instr} {p : PortId} {code : Byte} {payload : List Byte}
    (h : requestOf c = some (p, code, payload)) : ∃ t : State, exec c s = .next t ∧ t.occupancyOk := by
  obtain ⟨t, e, a⟩ := exec_requestOf_answers h s
  exact ⟨t, e, a.occupancyOk ok⟩

theorem exec_occupancyOk (c : Instr) : ∃ t : State, exec c s = .next t ∧ t.occupancyOk := by
  have stays : ∀ {o : Host.Outcome State Fault Refusal}, (∃ t : State, o = .next t ∧ t.tracker = s.tracker) →
      ∃ t : State, o = .next t ∧ t.occupancyOk := fun ⟨t, e, same⟩ => ⟨t, e, State.occupancyOk_of_tracker ok same⟩
  cases c
  case hardReset rcs => exact ⟨_, rfl, State.occupancyOk_of_tracker State.reset_occupancyOk rfl⟩
  case requestFrame p sdi =>
    obtain ⟨t, e, a⟩ := exec_requestFrame_answers p sdi s
    exact ⟨t, e, a.occupancyOk ok⟩
  case pitExitRecheck w => exact execPitExitRecheck_occupancyOk ok w
  case actuationDeadline w => exact execActuationDeadline_occupancyOk ok w
  case holdDeadline w => exact execHoldDeadline_occupancyOk ok w
  case restoringActuationDeadline w => exact execRestoringActuationDeadline_occupancyOk ok w
  case stall c => exact execStall_occupancyOk ok c
  case trackTimeTick | selnFall | offerExpiry | stweRise => exact stays ⟨_, rfl, rfl⟩
  case restore => exact stays (execRestore_tracker s)
  case restoreEnd => exact stays (execRestoreEnd_tracker s)
  case staleExpiry h => exact stays (execStaleExpiry_tracker h s)
  case handsetLostExpiry h => exact stays (execHandsetLostExpiry_tracker h s)
  case intentExpiry c => exact stays (execIntentExpiry_tracker c s)
  case conflictCapEnd c => exact stays (execConflictCapEnd_tracker c s)
  case pairingWindowExpiry => exact stays (execPairingWindowExpiry_tracker s)
  case lampExpiry => exact stays (execLampExpiry_tracker s)
  case writerCommitStart => exact stays ⟨_, rfl, s.chooseCommit_tracker⟩
  case writerStepEnd => exact stays (execWriterStepEnd_tracker s)
  case commitCompletion => exact stays (execCommitCompletion_tracker s)
  case stweFall => exact stays (execStweFall_tracker s)
  case railFrameStart => exact stays (execRailFrameStart_tracker s)
  case broadcastWord | carWord | quietWindow => exact stays (sendPart_ite_tracker ..)
  all_goals exact exec_requestOf_occupancyOk ok rfl

end

/-- Settles O56: every command keeps records and lists in step, and a bit period moves no car. -/
theorem everyStepKeepsTheOccupancy : Obligations.EveryStepKeepsTheOccupancy := by
  intro s t ok h
  unfold step at h
  split at h
  · cases h
    exact State.occupancyOk_of_tracker ok s.bitPeriod_tracker
  · next c rest _ =>
    obtain ⟨u, e, kept⟩ :=
      exec_occupancyOk (s := { s with pending := rest }) (State.occupancyOk_of_tracker ok rfl) c
    rw [e] at h
    cases h
    exact kept

end Sys2Proof.Machine
end

section
/-! Moves of a car, the undo and the grant (R65, R70, R75, R77, R78, R93), and the timed events of a car (R75, R84, R107). -/

namespace Sys2Proof.Machine

-- One after the other, the proofs need no thread each.
set_option Elab.async false

/-! ## Moves (R65, R75) -/

theorem State.stallDeadline_eq (s : State) (z : ZoneId) (stamp : Time) :
    s.stallDeadline z stamp =
      if s.geo.zones[z].stallTime = 0 then none else some (stamp + s.geo.zones[z].stallTime.setWidth 32) := by
  unfold State.stallDeadline
  simp only [addMs_toNat]

/-- A move touches the tracker alone. -/
theorem State.moveCar_trackerOnly (s : State) (c : CarId) (z : ZoneId) (t : Time) (way : Way) :
    s.moveCar c z t way = { s with tracker := (s.moveCar c z t way).tracker } := rfl

theorem State.moveCar_car (s : State) (c : CarId) (z : ZoneId) (t : Time) (way : Way) :
    (s.moveCar c z t way).tracker.cars[c] = CarRecord.mk (some (Placed.mk z t way false)) s.tracker.cars[c].lastSensor
      s.tracker.cars[c].lastStamp (s.stallDeadline z t) := by
  rw [State.moveCar_cars, if_pos rfl]

theorem State.moveCar_otherCar (s : State) {c k : CarId} (other : k ≠ c) (z : ZoneId) (t : Time) (way : Way) :
    (s.moveCar c z t way).tracker.cars[k] = s.tracker.cars[k] := by
  rw [State.moveCar_cars, if_neg other]

/-- A test of inequality in the lists' words and in the statements'. -/
theorem filter_bne_car {α : Type} (car : α → CarId) (l : List α) (c : CarId) :
    l.filter (car · != c) = l.filter (car · ≠ c) :=
  List.filter_congr fun _ _ => Bool.eq_iff_iff.2 (bne_iff_ne.trans decide_eq_true_iff.symm)

section
variable {s : State} (ok : s.occupancyOk)
include ok

theorem State.moveCar_list (c : CarId) (z : ZoneId) (t : Time) (way : Way) :
    (s.moveCar c z t way).tracker.lists[z] = s.tracker.lists[z].filter (·.car ≠ c) ++ [Occupant.mk c t way] := by
  rw [State.moveCar_lists ok, if_pos rfl, filter_bne_car Occupant.car]

theorem State.moveCar_otherList (c : CarId) {y z : ZoneId} (other : y ≠ z) (t : Time) (way : Way) :
    (s.moveCar c z t way).tracker.lists[y] = s.tracker.lists[y].filter (·.car ≠ c) := by
  rw [State.moveCar_lists ok, if_neg other, List.append_nil, filter_bne_car Occupant.car]

end

/-! ## The undo and the grant (R78, R93) -/

theorem State.undoGrant_notShown {s : State} {w : SwitchId} {cl : Claim}
    (gone : ¬ ∃ pl : Placed, s.tracker.cars[cl.car].placed = some pl ∧
      pl.zone = s.geo.switches[w].targetZone ∧ pl.way = .switch ∧ pl.entryStamp = cl.grantStamp) :
    s.undoGrant w cl = s := by
  unfold State.undoGrant
  split
  · next pl placed => exact if_neg fun shown => gone ⟨pl, placed, shown⟩
  · rfl

theorem State.modSwitch_eq_put (s : State) (w : SwitchId) (f : SwitchState → SwitchState) :
    s.modSwitch w f = s.putSwitch w (f (s.switch w)) := by
  unfold State.modSwitch State.putSwitch
  rw [modAt_congr s.lane.switches w (f := f) (g := fun _ => f (s.switch w)) rfl]

/-- A grant in the statements' words: the move, the claim, the intent, the THROW and the notice. -/
theorem State.grant_eq {s : State} {c : CarId} {pl : Placed} (placed : s.tracker.cars[c].placed = some pl)
    (w : SwitchId) :
    s.grant c w =
      (let sw := s.geo.switches[w]
       let moved := s.moveCar c sw.targetZone s.now .switch
       let claimed := moved.putSwitch w { s.switch w with
         mode := .pending (s.now + sw.actuationTime.setWidth 32) (Claim.mk c s.now pl.zone pl.entryStamp .opened) }
       let settled := if sw.kind = .pitExit then claimed else claimed.putIntent c none
       (settled.offerTo sw.owner (.throwSwitch w c)).tellDecision w c .grant) := by
  unfold State.grant
  rw [placed]
  simp only [State.modSwitch_eq_put, ← addMs_toNat]
  split <;> rfl

/-- Settles O37, update by update. -/
theorem movesAndGrants : Obligations.MovesAndGrants := by
  intro c z stamp way n w cl s ok
  refine ⟨⟨s.moveCar_trackerOnly c z stamp way, ?_, fun k other => s.moveCar_otherCar other z stamp way,
    State.moveCar_list ok c z stamp way, fun y other => State.moveCar_otherList ok c other stamp way⟩,
    s.placeCrossing_eq n z c stamp, ⟨?_, State.undoGrant_notShown⟩, fun pl placed => State.grant_eq placed w⟩
  · rw [State.moveCar_car, State.stallDeadline_eq]
  · rintro ⟨pl, placed, zone, joined, granted⟩
    exact State.undoGrant_shown placed zone joined granted

/-! ## Timed events (R75, R84, R107) -/

section
variable {s : State} {c : CarId}

theorem execStall_due {pl : Placed} {d : Time} (placed : s.tracker.cars[c].placed = some pl)
    (tracked : pl.stalled = false) (deadline : s.tracker.cars[c].stallDeadline = some d)
    (due : (s.now - d).toNat < 2 ^ 31) :
    execStall c s = .next ((s.putCar c { s.tracker.cars[c] with
      placed := some { pl with stalled := true }, stallDeadline := none }).offerRaceControl
        (.stall c pl.zone s.geo.zones[pl.zone].stallTime)) := by
  have stalls : (!pl.stalled && dueAt s.now s.tracker.cars[c].stallDeadline) = true := by
    rw [tracked, dueAt_iff.2 ⟨d, deadline, reached_iff.2 due⟩]
    rfl
  unfold execStall State.putCar
  rw [placed]
  simp only
  rw [if_pos stalls, modAt_congr s.tracker.cars c
    (g := fun _ => { s.tracker.cars[c] with placed := some { pl with stalled := true }, stallDeadline := none }) rfl]

theorem execIntentExpiry_due {i : Intent} (held : s.lane.intents[c] = some i) (due : (s.now - i.expiry).toNat < 2 ^ 31) :
    execIntentExpiry c s = .next (s.putIntent c none) :=
  if_pos (dueAt_iff.2 ⟨i.expiry, by rw [held]; rfl, reached_iff.2 due⟩)

theorem execConflictCapEnd_due {cap : ConflictCap} (held : s.lane.conflictCaps[c] = some cap)
    (due : (s.now - cap.ends).toNat < 2 ^ 31) : execConflictCapEnd c s = .next (s.putConflictCap c none) :=
  if_pos (dueAt_iff.2 ⟨cap.ends, by rw [held]; rfl, reached_iff.2 due⟩)

end

/-- Settles O41: each event in turn, when it is due. -/
theorem timedEventsOfACar : Obligations.TimedEventsOfACar := fun _ _ =>
  ⟨fun _ _ placed tracked deadline due => execStall_due placed tracked deadline due,
    fun _ held due => execIntentExpiry_due held due, fun _ held due => execConflictCapEnd_due held due⟩

end Sys2Proof.Machine
end

section
/-! A crossing that the Car Tracker places is taken, handed on and answered; taking the request commutes with all that it
hands on (R66 to R71, R86 to R96). -/

namespace Sys2Proof.Machine

-- One after the other, the proofs need no thread each.
set_option Elab.async false

/-! ## Taking a request commutes with what a placed crossing hands on -/

section
variable (s : State) (p : PortId)

theorem State.taken_placeCrossing (n : SensorId) (z : ZoneId) (c : CarId) (stamp : Time) :
    (s.taken p).placeCrossing n z c stamp = (s.placeCrossing n z c stamp).taken p := rfl

theorem State.taken_modSwitch (w : SwitchId) (f : SwitchState → SwitchState) :
    (s.taken p).modSwitch w f = (s.modSwitch w f).taken p := rfl

theorem State.taken_reconcileAt (c : CarId) (n : SensorId) (lane : Byte) (w : SwitchId) :
    State.reconcileAt c n lane (s.taken p) w = (State.reconcileAt c n lane s w).taken p := by
  unfold State.reconcileAt
  rw [State.taken_switch]
  cases (s.switch w).mode.claim with
  | none => rfl
  | some cl =>
    simp only [State.taken_modSwitch, State.taken_fields]
    split
    · split
      · rfl
      · exact State.taken_offerWithRaceControl ..
    · rfl

/-- What commutes with every move of a fold commutes with the fold. -/
theorem State.taken_foldl {α : Type} {f : State → α → State} (h : ∀ (u : State) (a : α), f (u.taken p) a = (f u a).taken p)
    (l : List α) : l.foldl f (s.taken p) = (l.foldl f s).taken p := by
  induction l generalizing s with
  | nil => rfl
  | cons a as ih =>
    rw [List.foldl_cons, h]
    exact ih (f s a)

theorem State.taken_reconcile (c : CarId) (n : SensorId) (lane : Byte) :
    (s.taken p).reconcile c n lane = (s.reconcile c n lane).taken p :=
  s.taken_foldl p (fun u w => u.taken_reconcileAt p c n lane w) _

theorem State.taken_endCapsByCrossing (c : CarId) :
    (s.taken p).endCapsByCrossing c = (s.endCapsByCrossing c).taken p := by
  unfold State.endCapsByCrossing
  simp only [State.taken_fields]
  cases s.lane.pitHolds[c] <;> rfl

theorem State.taken_setConflictCap (c : CarId) (z : ZoneId) (other : CarId) :
    (s.taken p).setConflictCap c z other = (s.setConflictCap c z other).taken p :=
  State.taken_offerRaceControl (s.putConflictCap c (some (ConflictCap.mk s.course.settings.conflictCap
    (addMs s.now s.course.settings.conflictHold.toNat)))) p _

theorem State.taken_conflictTest (z : ZoneId) (c : CarId) (stamp : Time) :
    (s.taken p).conflictTest z c stamp = (s.conflictTest z c stamp).taken p := by
  unfold State.conflictTest
  change (s.conflictIn z c stamp).elim _ _ = _
  cases s.conflictIn z c stamp with
  | none => rfl
  | some other => exact s.taken_setConflictCap p c z other

theorem State.taken_jumpTest (n : SensorId) (c : CarId) (stamp : Time) :
    (s.taken p).jumpTest n c stamp = (s.jumpTest n c stamp).taken p := by
  unfold State.jumpTest
  simp only [State.taken_fields, State.taken_offerRaceControl, State.taken_ite]

theorem State.taken_handOver (n : SensorId) (z : ZoneId) (c : CarId) (stamp : Time) :
    (s.taken p).handOver n z c stamp = (s.handOver n z c stamp).taken p := by
  unfold State.handOver
  simp only [State.taken_fields, State.taken_reconcile, State.taken_endCapsByCrossing, State.taken_conflictTest,
    State.taken_jumpTest]

/-! ## Taking a request commutes with a decision -/

theorem State.taken_announceDecision (w : SwitchId) (c : CarId) (d : Decision) :
    (s.taken p).announceDecision w c d = (s.announceDecision w c d).taken p := s.taken_offerWithRaceControl p _ _

theorem State.taken_grant (c : CarId) (w : SwitchId) : (s.taken p).grant c w = (s.grant c w).taken p := by
  have moved : ∀ z : ZoneId, (s.taken p).moveCar c z (s.taken p).now .switch = (s.moveCar c z s.now .switch).taken p :=
    fun _ => rfl
  unfold State.grant
  simp only [State.taken_fields, moved]
  cases s.tracker.cars[c].placed with
  | none => rfl
  | some prior =>
    simp only [State.taken_modSwitch, State.taken_offerTo]
    split
    · exact State.taken_announceDecision ..
    · exact State.taken_announceDecision (State.clearIntent _ c) p w c .grant

theorem State.taken_holdCar (c : CarId) (w : SwitchId) (reason : DecisionReason) :
    (s.taken p).holdCar c w reason = (s.holdCar c w reason).taken p :=
  State.taken_announceDecision
    ((s.modSwitch w fun st => { st with
      holds := st.holds ++ [⟨c, reason⟩],
      recheck := if st.holds.isEmpty then some (addMs s.now 20) else st.recheck }).setPitHold c (some w)) p w c
    (.hold reason)

/-- Taking a request leaves the queues. -/
theorem State.taken_queueFull (q : PortId) : (s.taken p).queueFull q = s.queueFull q := by
  unfold State.queueFull
  rw [State.taken_ports]
  split <;> rfl

theorem State.taken_passageChecks (w : SwitchId) : (s.taken p).passageChecks w = s.passageChecks w := by
  unfold State.passageChecks
  rw [State.taken_queueFull]
  rfl

theorem State.taken_laneChecks (c : CarId) (w : SwitchId) : (s.taken p).laneChecks c w = s.laneChecks c w := by
  unfold State.laneChecks
  rw [State.taken_passageChecks]
  rfl

theorem State.taken_exitChecks (w : SwitchId) : (s.taken p).exitChecks w = s.exitChecks w := by
  unfold State.exitChecks
  rw [State.taken_passageChecks]
  rfl

theorem State.taken_decidePassage (c : CarId) (w : SwitchId) :
    (s.taken p).decidePassage c w = (s.decidePassage c w).taken p := by
  unfold State.decidePassage
  rw [State.taken_laneChecks]
  cases firstFailing (s.laneChecks c w) with
  | none => exact s.taken_grant p c w
  | some reason =>
    have capped : (s.taken p).setBusyCap c w = (s.setBusyCap c w).taken p := rfl
    simp only [capped, ← State.taken_ite, State.taken_announceDecision]

theorem State.taken_decideExit (c : CarId) (w : SwitchId) :
    (s.taken p).decideExit c w = (s.decideExit c w).taken p := by
  unfold State.decideExit
  rw [State.taken_switch, State.taken_exitChecks]
  simp only [State.taken_holdCar, State.taken_grant, State.taken_ite]
  cases firstFailing (s.exitChecks w) <;> rfl

theorem State.taken_decideEntry (c : CarId) (w : SwitchId) :
    (s.taken p).decideEntry c w = (s.decideEntry c w).taken p := by
  have capped : (s.taken p).setBusyCap c w = (s.setBusyCap c w).taken p := rfl
  unfold State.decideEntry
  simp only [State.taken_fields, State.taken_switch, State.taken_decideExit, State.taken_decidePassage, capped,
    State.taken_ite]

theorem State.taken_handOn (n : SensorId) (z : ZoneId) (w : Option SwitchId) (c : CarId) (stamp : Time) :
    (s.taken p).handOn n z w c stamp = (s.handOn n z w c stamp).taken p := by
  unfold State.handOn
  rw [State.taken_handOver]
  generalize s.handOver n z c stamp = u
  cases w with
  | none => rfl
  | some w => exact State.taken_decideEntry ..

end

/-! ## The request (R66 to R71) -/

theorem State.lateAgainst_none {s : State} {c : CarId} {stamp : Time}
    (inTime : ∀ pl : Placed, s.tracker.cars[c].placed = some pl → 0 ≤ (stamp - pl.entryStamp).toInt) :
    s.lateAgainst c stamp = none := by
  unfold State.lateAgainst
  rw [Option.filter_eq_none_iff]
  intro entered he late
  obtain ⟨pl, placed, rfl⟩ := Option.map_eq_some_iff.1 he
  exact absurd (earlier_iff.1 late) (not_lt.2 (inTime pl placed))

section
variable {p : PortId} {n : SensorId} {c : CarId} {age : Byte} {z : ZoneId} {s : State}

theorem State.trackCrossing_placed {stamp : Time} (w : Option SwitchId)
    (once : ¬ s.duplicateCrossing n c stamp = true) (inTime : s.lateAgainst c stamp = none) :
    s.trackCrossing p n z w c stamp = ((s.placeCrossing n z c stamp).handOn n z w c stamp).done p [0] := by
  unfold State.trackCrossing
  rw [if_neg once, inTime]
  rfl

/-- At a BOUNDARY sensor (no switch) or an ENTRY sensor (its switch) a placed crossing is handed on. -/
theorem exec_reportCrossing_handsOn (places : s.placesCrossing p n c (s.now - age.setWidth 32)) (w : Option SwitchId)
    (kind : s.geo.sensors[n].kind = w.elim (.boundary z) (.entry z)) :
    exec (.reportCrossing p (BitVec.ofNat 8 n.val) (BitVec.ofNat 8 (c.val + 1)) age) s =
      .next (((s.placeCrossing n z c (s.now - age.setWidth 32)).handOn n z w c (s.now - age.setWidth 32)).answer p
        (.done [0])) := by
  obtain ⟨takes, run, defined, owner, once, inTime⟩ := places
  have reaches : (s.taken p).reqReportCrossing p (BitVec.ofNat 8 n.val) (BitVec.ofNat 8 (c.val + 1)) age =
      (s.taken p).trackCrossing p n z w c (s.now - age.setWidth 32) := by
    rw [State.reqReportCrossing_defined (s := s.taken p) run defined,
      if_neg (show ¬ (s.taken p).geo.sensors[n].owner ≠ p from not_not.2 owner),
      show numOf 16 (BitVec.ofNat 8 (c.val + 1)) = some c from numOf_numByte (by decide) c]
    simp only [show (s.taken p).geo.sensors[n].kind = w.elim (.boundary z) (.entry z) from kind]
    cases w <;> rfl
  rw [exec_reportCrossing takes, reaches,
    State.trackCrossing_placed w (s := s.taken p) (mt State.duplicateCrossing_iff.1 once) (State.lateAgainst_none inTime),
    State.taken_placeCrossing, State.taken_handOn, State.taken_done]

end

end Sys2Proof.Machine
end

section
/-! What a placed crossing hands on: claims, caps and holds, the conflict test and the jump report (R71 to R74, R96, R107,
R108, R120). -/

namespace Sys2Proof.Machine

-- One after the other, the proofs need no thread each.
set_option Elab.async false

/-! ## A claim rewritten where it stands -/

/-- Rewriting a mode's claim reads the rewriting at that claim alone. -/
theorem SwitchMode.mapClaim_congr {m : SwitchMode} {f g : Claim → Claim} (same : ∀ cl, m.claim = some cl → f cl = g cl) :
    m.mapClaim f = m.mapClaim g := by
  cases m with
  | pending d cl => exact congrArg (SwitchMode.pending d) (same cl rfl)
  | set d cl => exact congrArg (SwitchMode.set d) (same cl rfl)
  | _ => rfl

theorem SwitchMode.mapClaim_id (m : SwitchMode) : m.mapClaim (fun cl => cl) = m := by cases m <;> rfl

@[simp] theorem SwitchMode.mapClaim_runState (m : SwitchMode) (f : Claim → Claim) :
    (m.mapClaim f).runState = m.runState := by cases m <;> rfl

theorem State.modSwitch_self {s : State} {w : SwitchId} {f : SwitchState → SwitchState}
    (same : f (s.switch w) = s.switch w) : s.modSwitch w f = s :=
  State.ext_blocks (lane := by
    rw [(State.modSwitch_fields s w f).2.2.2.2.2.1, modAt_eq_self s.lane.switches w same])

/-! ## Reconciliation (R96) -/

/-- A claim of switch w after a placed crossing of car c on a lane: its OPEN claim is TAKEN where the switch leads to that
lane, else MISSED. -/
def Geometry.settle (g : Geometry) (c : CarId) (lane : Byte) (w : SwitchId) (cl : Claim) : Claim :=
  if cl.car = c ∧ cl.outcome = .opened then
    { cl with outcome := if g.zones[g.switches[w].targetZone].lane = lane then .taken else .missed } else cl

/-- What the Lane Arbiter holds for switch w after it. -/
def Geometry.settleSwitch (g : Geometry) (c : CarId) (lane : Byte) (w : SwitchId) (st : SwitchState) : SwitchState :=
  { st with mode := st.mode.mapClaim (g.settle c lane w) }

/-- A claim of switch w that a placed crossing of car c on this lane misses. -/
def Geometry.misses (g : Geometry) (c : CarId) (lane : Byte) (w : SwitchId) (cl : Claim) : Bool :=
  cl.car == c && cl.outcome == .opened && !decide (g.zones[g.switches[w].targetZone].lane = lane)

/-- Switch w holds such a claim. -/
def State.misses (s : State) (c : CarId) (lane : Byte) (w : SwitchId) : Bool :=
  (s.switch w).mode.claim.any (s.geo.misses c lane w)

/-- The MISSED notice of switch w. -/
def State.tellMissed (g : Geometry) (c : CarId) (n : SensorId) (s : State) (w : SwitchId) : State :=
  s.offerWithRaceControl g.switches[w].owner (.missed w c n)

section
variable (s : State) (c : CarId) (n : SensorId) (lane : Byte)

/-- Without an OPEN claim of the car a switch stays. -/
theorem State.modSwitch_settle_self {s : State} {c : CarId} {w : SwitchId}
    (closed : ∀ cl, (s.switch w).mode.claim = some cl → ¬ (cl.car = c ∧ cl.outcome = .opened)) (lane : Byte) :
    s.modSwitch w (s.geo.settleSwitch c lane w) = s := by
  refine State.modSwitch_self ?_
  unfold Geometry.settleSwitch
  rw [SwitchMode.mapClaim_congr (f := s.geo.settle c lane w) (g := fun cl => cl) fun cl held => if_neg (closed cl held),
    SwitchMode.mapClaim_id]

/-- One switch's reconciliation: its claim is settled, and a missed one is told. -/
theorem State.reconcileAt_eq (w : SwitchId) :
    State.reconcileAt c n lane s w =
      if s.misses c lane w then State.tellMissed s.geo c n (s.modSwitch w (s.geo.settleSwitch c lane w)) w
      else s.modSwitch w (s.geo.settleSwitch c lane w) := by
  unfold State.reconcileAt State.misses Geometry.misses
  cases claim : (s.switch w).mode.claim with
  | none => exact (State.modSwitch_settle_self (by simp [claim]) lane).symm
  | some cl =>
    by_cases opened : cl.car = c ∧ cl.outcome = .opened
    · have settled : s.modSwitch w (fun st => { st with mode := st.mode.mapClaim fun cl => { cl with
            outcome := if s.geo.zones[s.geo.switches[w].targetZone].lane == lane then .taken else .missed } }) =
          s.modSwitch w (s.geo.settleSwitch c lane w) := by
        rw [State.modSwitch_eq_put, State.modSwitch_eq_put, Geometry.settleSwitch]
        refine congrArg (fun m => s.putSwitch w { s.switch w with mode := m }) (SwitchMode.mapClaim_congr fun x held => ?_)
        obtain rfl : cl = x := Option.some.inj (claim.symm.trans held)
        simp only [Geometry.settle, if_pos opened, beq_iff_eq]
      simp only [if_pos opened, settled]
      generalize s.geo.zones[s.geo.switches[w].targetZone].lane = target
      by_cases reached : target = lane
      · simp [reached]
      · simp [reached, opened]
        rfl
    · have closed : ∀ x, (s.switch w).mode.claim = some x → ¬ (x.car = c ∧ x.outcome = .opened) := by
        intro x held
        exact Option.some.inj (claim.symm.trans held) ▸ opened
      have kept : (cl.car == c && cl.outcome == .opened) = false := by simpa using opened
      simp only [if_neg opened, State.modSwitch_settle_self closed, Option.any_some, kept, Bool.false_and]
      rfl

theorem State.reconcileAt_switch (w k : SwitchId) : (State.reconcileAt c n lane s w).switch k =
    if k = w then s.geo.settleSwitch c lane w (s.switch k) else s.switch k := by
  rw [← State.modSwitch_switch, State.reconcileAt_eq]
  split <;> rfl

/-- Reconciliation touches the switches alone in the Lane Arbiter. -/
theorem State.reconcileAt_lane (w : SwitchId) : (State.reconcileAt c n lane s w).lane =
    { s.lane with switches := (State.reconcileAt c n lane s w).lane.switches } := by
  rw [State.reconcileAt_eq]
  split <;> rfl

theorem State.reconcileAt_ports (w : SwitchId) : (State.reconcileAt c n lane s w).ports =
    if s.misses c lane w then (State.tellMissed s.geo c n s w).ports else s.ports := by
  rw [State.reconcileAt_eq]
  split <;> rfl

end

section
variable (c : CarId) (n : SensorId) (lane : Byte)

/-- Reconciled one after another, each switch of the list is settled once. -/
theorem State.reconcileAll_switch {l : List SwitchId} (once : l.Nodup) (s : State) (k : SwitchId) :
    (l.foldl (State.reconcileAt c n lane) s).switch k =
      if k ∈ l then s.geo.settleSwitch c lane k (s.switch k) else s.switch k := by
  induction l generalizing s with
  | nil => rfl
  | cons w ws ih =>
    obtain ⟨notAgain, once⟩ := List.nodup_cons.1 once
    rw [List.foldl_cons, ih once, State.reconcileAt_switch, (State.reconcileAt_fields s c n lane w).2.1]
    by_cases here : k = w
    · subst here
      simp [notAgain]
    · simp [here]

theorem State.reconcileAll_lane (l : List SwitchId) (s : State) : (l.foldl (State.reconcileAt c n lane) s).lane =
    { s.lane with switches := (l.foldl (State.reconcileAt c n lane) s).lane.switches } := by
  induction l generalizing s with
  | nil => rfl
  | cons w ws ih =>
    rw [List.foldl_cons, ih, State.reconcileAt_lane]

/-- The MISSED notices read the ports and the time alone. -/
theorem State.tellMissed_ports_congr (g : Geometry) (l : List SwitchId) {s t : State} (ports : s.ports = t.ports)
    (seq : s.seq = t.seq) :
    (l.foldl (State.tellMissed g c n) s).ports = (l.foldl (State.tellMissed g c n) t).ports := by
  induction l generalizing s t with
  | nil => exact ports
  | cons w ws ih => exact ih (State.offerWithRaceControl_ports_congr ports seq _ _) seq

/-- The notices of a reconciliation: MISSED for each switch that misses, in the list's order. -/
theorem State.reconcileAll_ports {l : List SwitchId} (once : l.Nodup) (s : State) :
    (l.foldl (State.reconcileAt c n lane) s).ports =
      ((l.filter (s.misses c lane)).foldl (State.tellMissed s.geo c n) s).ports := by
  induction l generalizing s with
  | nil => rfl
  | cons w ws ih =>
    obtain ⟨notAgain, once⟩ := List.nodup_cons.1 once
    have others : ws.filter ((State.reconcileAt c n lane s w).misses c lane) = ws.filter (s.misses c lane) := by
      refine List.filter_congr fun k mem => ?_
      have other : k ≠ w := fun same => notAgain (same ▸ mem)
      unfold State.misses
      rw [State.reconcileAt_switch, if_neg other, (State.reconcileAt_fields s c n lane w).2.1]
    rw [List.foldl_cons, ih once, others, (State.reconcileAt_fields s c n lane w).2.1, List.filter_cons]
    have told := State.reconcileAt_ports s c n lane w
    have seq := (State.reconcileAt_fields s c n lane w).1
    split
    · next misses =>
      rw [if_pos misses] at told
      exact State.tellMissed_ports_congr c n s.geo _ told seq
    · next reached =>
      rw [if_neg reached] at told
      exact State.tellMissed_ports_congr c n s.geo _ told seq

variable (s : State)

theorem State.reconcile_switch (w : SwitchId) :
    (s.reconcile c n lane).switch w = s.geo.settleSwitch c lane w (s.switch w) := by
  have settled := State.reconcileAll_switch c n lane (List.nodup_finRange 32) s w
  rwa [if_pos (List.mem_finRange w)] at settled

theorem State.reconcile_lane : (s.reconcile c n lane).lane =
    { s.lane with switches := (s.reconcile c n lane).lane.switches } := by
  unfold State.reconcile
  exact State.reconcileAll_lane c n lane _ s

theorem State.reconcile_ports : (s.reconcile c n lane).ports =
    (((List.finRange 32).filter (s.misses c lane)).foldl (State.tellMissed s.geo c n) s).ports :=
  State.reconcileAll_ports c n lane (List.nodup_finRange 32) s

end

/-! ## The ends of the BUSY cap and of the hold (R71, R92, R108) -/

/-- What a hold list's switch holds once a car has left it. -/
def SwitchState.without (c : CarId) (st : SwitchState) : SwitchState :=
  let holds := st.holds.filter (·.car ≠ c)
  { st with holds := holds, recheck := if holds = [] then none else st.recheck }

theorem State.endHold_eq (s : State) (c : CarId) (w : SwitchId) :
    s.endHold c w = (s.modSwitch w (SwitchState.without c)).setPitHold c none := by
  have left : ∀ st : SwitchState, { st with
      holds := st.holds.filter (·.car != c),
      recheck := if (st.holds.filter (·.car != c)).isEmpty then none else st.recheck } = st.without c := by
    intro st
    simp only [SwitchState.without, List.isEmpty_iff, filter_bne_car Hold.car]
  exact congrArg (fun f => (s.modSwitch w f).setPitHold c none) (funext left)

theorem State.endCapsByCrossing_switch (s : State) (c : CarId) (w : SwitchId) :
    (s.endCapsByCrossing c).switch w = if s.lane.pitHolds[c] = some w then (s.switch w).without c else s.switch w := by
  unfold State.endCapsByCrossing
  simp only
  cases held : s.lane.pitHolds[c] with
  | none => rfl
  | some k =>
    simp only [State.endHold_eq, Option.some.injEq, eq_comm (a := k)]
    exact State.modSwitch_switch _ k w _

theorem State.endCapsByCrossing_lane (s : State) (c : CarId) : (s.endCapsByCrossing c).lane =
    LaneArbiter.mk s.lane.intents (s.endCapsByCrossing c).lane.switches s.lane.conflictCaps
      (modAt s.lane.busyCaps c fun _ => none) (modAt s.lane.pitHolds c fun _ => none) := by
  unfold State.endCapsByCrossing
  simp only
  cases held : s.lane.pitHolds[c] with
  | none => rw [modAt_eq_self s.lane.pitHolds c held.symm]
  | some k => rfl

/-! ## The conflict test and the jump report (R73, R74, R107, R120) -/

/-- An entry of zone z's list that conflicts with car c's entry at t (R73). -/
def State.conflicting (s : State) (z : ZoneId) (c : CarId) (t : Time) (o : Occupant) : Prop :=
  o.car ≠ c ∧ o.way = .switch ∧ s.geo.zones[z].guardTime ≠ 0 ∧
    (t - o.entryStamp).toInt < s.geo.zones[z].guardTime.toNat

/-- The conflict that is found is the one nearest the head of the list. -/
theorem State.conflictIn_iff (s : State) (z : ZoneId) (c : CarId) (t : Time) (o : CarId) :
    s.conflictIn z c t = some o ↔ ∃ (before after : List Occupant) (x : Occupant),
      s.tracker.lists[z] = before ++ x :: after ∧ s.conflicting z c t x ∧ x.car = o ∧
        ∀ y ∈ before, ¬ s.conflicting z c t y := by
  unfold State.conflictIn State.conflicting
  generalize s.geo.zones[z].guardTime = guard
  simp only
  by_cases off : guard = 0
  · subst off
    simp
  · have test : ∀ x : Occupant, (x.car != c && x.way == .switch && decide ((t - x.entryStamp).toInt < guard.toNat)) = true ↔
        x.car ≠ c ∧ x.way = .switch ∧ guard ≠ 0 ∧ (t - x.entryStamp).toInt < guard.toNat := by
      intro x
      simp only [Bool.and_eq_true, bne_iff_ne, beq_iff_eq, decide_eq_true_eq, and_assoc]
      exact and_congr_right' (and_congr_right' (and_iff_right off).symm)
    have guarded : guard.toNat ≠ 0 := fun zero => off (BitVec.eq_of_toNat_eq zero)
    simp only [if_neg guarded, Option.map_eq_some_iff, List.find?_eq_some_iff_append, Bool.not_eq_true', test,
      ← Bool.not_eq_true]
    constructor
    · rintro ⟨x, ⟨conflicts, before, after, list, first⟩, car⟩
      exact ⟨before, after, x, list, conflicts, car, first⟩
    · rintro ⟨before, after, x, list, conflicts, car, first⟩
      exact ⟨x, ⟨conflicts, before, after, list, first⟩, car⟩

theorem State.conflictTest_ports (s : State) (z : ZoneId) (c : CarId) (t : Time) : (s.conflictTest z c t).ports =
    ((s.conflictIn z c t).elim s fun o => s.offerRaceControl (.conflict c z o)).ports := by
  unfold State.conflictTest
  cases s.conflictIn z c t with
  | none => rfl
  | some o => exact State.offerRaceControl_ports_congr rfl rfl _

theorem State.conflictTest_lane (s : State) (z : ZoneId) (c : CarId) (t : Time) : (s.conflictTest z c t).lane =
    LaneArbiter.mk s.lane.intents s.lane.switches
      (if (s.conflictIn z c t).isSome then modAt s.lane.conflictCaps c fun _ => some (ConflictCap.mk
        s.course.settings.conflictCap (s.now + s.course.settings.conflictHold.setWidth 32)) else s.lane.conflictCaps)
      s.lane.busyCaps s.lane.pitHolds := by
  unfold State.conflictTest
  rw [← addMs_toNat]
  cases s.conflictIn z c t <;> rfl

theorem State.jumpTest_lane (s : State) (n : SensorId) (c : CarId) (t : Time) : (s.jumpTest n c t).lane = s.lane := by
  unfold State.jumpTest
  split <;> rfl

end Sys2Proof.Machine
end

section
/-! The state that a placed crossing leaves, block by block (R70 to R74, R96, R107, R108, R120). -/

namespace Sys2Proof.Machine

-- One after the other, the proofs need no thread each.
set_option Elab.async false

/-! ## The notices of a placed crossing -/

/-- The notice of a conflict finding, if there is one. -/
def State.tellConflict (s : State) (c : CarId) (z : ZoneId) (other : Option CarId) : State :=
  other.elim s fun o => s.offerRaceControl (.conflict c z o)

/-- The conflict test reads the tracker and the geometry alone. -/
theorem State.conflictIn_congr {s t : State} (tracker : s.tracker = t.tracker) (geo : s.geo = t.geo) (z : ZoneId)
    (c : CarId) (stamp : Time) : s.conflictIn z c stamp = t.conflictIn z c stamp := by
  unfold State.conflictIn
  rw [tracker, geo]

theorem State.tellConflict_ports_congr {s t : State} (ports : s.ports = t.ports) (seq : s.seq = t.seq) (c : CarId)
    (z : ZoneId) (other : Option CarId) : (s.tellConflict c z other).ports = (t.tellConflict c z other).ports := by
  cases other with
  | none => exact ports
  | some o => exact State.offerRaceControl_ports_congr ports seq _

theorem State.tellConflict_seq (s : State) (c : CarId) (z : ZoneId) (other : Option CarId) :
    (s.tellConflict c z other).seq = s.seq := by
  cases other <;> rfl

theorem State.tellMissed_seq (g : Geometry) (c : CarId) (n : SensorId) (l : List SwitchId) (s : State) :
    (l.foldl (State.tellMissed g c n) s).seq = s.seq := by
  induction l generalizing s with
  | nil => rfl
  | cons w ws ih => exact ih (State.tellMissed g c n s w)

/-- The notice of a jump, in COUNTDOWN. -/
def State.tellJump (s : State) (course : CourseControl) (n : SensorId) (c : CarId) (stamp : Time) : State :=
  if course.course = .countdown then s.offerRaceControl (.jump c n course.lampCount stamp) else s

theorem State.tellJump_ports_congr {s t : State} (ports : s.ports = t.ports) (seq : s.seq = t.seq)
    (course : CourseControl) (n : SensorId) (c : CarId) (stamp : Time) :
    (s.tellJump course n c stamp).ports = (t.tellJump course n c stamp).ports := by
  unfold State.tellJump
  split
  · exact State.offerRaceControl_ports_congr ports seq _
  · exact ports

theorem State.jumpTest_eq (s : State) (n : SensorId) (c : CarId) (stamp : Time) :
    s.jumpTest n c stamp = s.tellJump s.course n c stamp := rfl

theorem State.conflictTest_seqAndCourse (s : State) (z : ZoneId) (c : CarId) (stamp : Time) :
    (s.conflictTest z c stamp).seq = s.seq ∧ (s.conflictTest z c stamp).course = s.course := by
  unfold State.conflictTest
  cases s.conflictIn z c stamp <;> exact ⟨rfl, rfl⟩

section
variable (s : State) (n : SensorId) (z : ZoneId) (c : CarId) (stamp : Time)

theorem State.afterCrossing_eq : s.afterCrossing n z c stamp =
    (((((s.placeCrossing n z c stamp).reconcile c n s.geo.zones[z].lane).endCapsByCrossing c).conflictTest z c
      stamp).jumpTest n c stamp) := rfl

/-- What a placed crossing hands on ends with the decision at an ENTRY sensor. -/
theorem State.handOn_eq (w : Option SwitchId) : (s.placeCrossing n z c stamp).handOn n z w c stamp =
    w.elim (s.afterCrossing n z c stamp) ((s.afterCrossing n z c stamp).decideEntry c) := by
  unfold State.handOn State.afterCrossing
  rfl

/-- The conflict test of a placed crossing is made on the lists that the placement leaves. -/
theorem State.handedOn_conflictIn (lane : Byte) :
    (((s.placeCrossing n z c stamp).reconcile c n lane).endCapsByCrossing c).conflictIn z c stamp =
      (s.placeCrossing n z c stamp).conflictIn z c stamp := State.conflictIn_congr (by simp) (by simp) z c stamp

/-- A placed crossing leaves all but the tracker, the Lane Arbiter and the queues. -/
@[simp] theorem State.afterCrossing_fields :
    (s.afterCrossing n z c stamp).seq = s.seq ∧ (s.afterCrossing n z c stamp).geo = s.geo ∧
    (s.afterCrossing n z c stamp).handsets = s.handsets ∧ (s.afterCrossing n z c stamp).binding = s.binding ∧
    (s.afterCrossing n z c stamp).tracker = (s.placeCrossing n z c stamp).tracker ∧
    (s.afterCrossing n z c stamp).course = s.course ∧ (s.afterCrossing n z c stamp).store = s.store ∧
    (s.afterCrossing n z c stamp).rcs = s.rcs ∧ (s.afterCrossing n z c stamp).freeCount = s.freeCount ∧
    (s.afterCrossing n z c stamp).pending = s.pending := by
  unfold State.afterCrossing
  simp

theorem State.afterCrossing_switch (w : SwitchId) : (s.afterCrossing n z c stamp).switch w =
    (if s.lane.pitHolds[c] = some w then
      (s.geo.settleSwitch c s.geo.zones[z].lane w (s.switch w)).without c
    else s.geo.settleSwitch c s.geo.zones[z].lane w (s.switch w)) := by
  have tests : ∀ u : State, ((u.conflictTest z c stamp).jumpTest n c stamp).switch w = u.switch w := fun u =>
    State.switch_eq (by rw [State.jumpTest_lane, State.conflictTest_lane]) w
  have held : ((s.placeCrossing n z c stamp).reconcile c n s.geo.zones[z].lane).lane.pitHolds = s.lane.pitHolds := by
    rw [State.reconcile_lane]
    simp
  rw [State.afterCrossing_eq, tests, State.endCapsByCrossing_switch, State.reconcile_switch, held]
  rfl

theorem State.afterCrossing_lane : (s.afterCrossing n z c stamp).lane =
    LaneArbiter.mk s.lane.intents (s.afterCrossing n z c stamp).lane.switches
      (if ((s.placeCrossing n z c stamp).conflictIn z c stamp).isSome then
        modAt s.lane.conflictCaps c fun _ => some (ConflictCap.mk s.course.settings.conflictCap
          (s.now + s.course.settings.conflictHold.setWidth 32)) else s.lane.conflictCaps)
      (modAt s.lane.busyCaps c fun _ => none) (modAt s.lane.pitHolds c fun _ => none) := by
  rw [State.afterCrossing_eq, State.jumpTest_lane, State.conflictTest_lane, State.handedOn_conflictIn,
    State.endCapsByCrossing_lane, State.reconcile_lane]
  simp [State.now]

/-- The notices of a placed crossing, in the order of R71: MISSED claims, the conflict, the jump. -/
theorem State.afterCrossing_ports : (s.afterCrossing n z c stamp).ports =
    (((((List.finRange 32).filter (s.misses c s.geo.zones[z].lane)).foldl (State.tellMissed s.geo c n) s).tellConflict c z
      ((s.placeCrossing n z c stamp).conflictIn z c stamp)).tellJump s.course n c stamp).ports := by
  rw [State.afterCrossing_eq, ← State.handedOn_conflictIn s n z c stamp s.geo.zones[z].lane]
  generalize told : ((List.finRange 32).filter (s.misses c s.geo.zones[z].lane)).foldl (State.tellMissed s.geo c n) s = v
  generalize handed : ((s.placeCrossing n z c stamp).reconcile c n s.geo.zones[z].lane).endCapsByCrossing c = u
  obtain ⟨tested, testedCourse⟩ := u.conflictTest_seqAndCourse z c stamp
  have course : u.course = s.course := by simp [← handed]
  have seq : u.seq = v.seq := by
    rw [← told, State.tellMissed_seq]
    simp [← handed]
  have ports : u.ports = v.ports := by
    rw [← handed, ← told, (State.endCapsByCrossing_fields _ c).2.2.2.2.2.2.2.2.2.2, State.reconcile_ports]
    exact State.tellMissed_ports_congr c n s.geo _ rfl rfl
  rw [State.jumpTest_eq, testedCourse, course]
  refine State.tellJump_ports_congr ?_ ?_ s.course n c stamp
  · exact (State.conflictTest_ports u z c stamp).trans (State.tellConflict_ports_congr ports seq c z _)
  · rw [State.tellConflict_seq, tested, seq]

end

/-- Settles O36, block by block: the state that the crossing leaves, and the answer. -/
theorem placedCrossingIsHandedOn : Obligations.PlacedCrossingIsHandedOn := by
  intro p n c age z s places kind
  refine ⟨fun boundary => by rw [exec_reportCrossing_handsOn places none boundary, State.handOn_eq, Option.elim_none], _,
    fun o => State.conflictIn_iff _ z c _ o, fun w => ?_, ?_⟩
  · simp only
    rw [State.afterCrossing_switch]
    refine ⟨?_, ?_, ?_, ?_⟩
    · split <;> rfl
    · split <;> rfl
    · intro free
      rw [if_neg free]
      exact ⟨rfl, rfl⟩
    · intro held
      rw [if_pos held]
      exact ⟨rfl, rfl⟩
  · simp only
    refine State.ext_blocks (lane := State.afterCrossing_lane ..) (ports := State.afterCrossing_ports ..)

end Sys2Proof.Machine
end

section
/-! The decisions at an entry sensor, on the state that the placed crossing leaves (R71, R86 to R93, R108). -/

namespace Sys2Proof.Machine

-- One after the other, the proofs need no thread each.
set_option Elab.async false

/-! ## The decision, case by case (R86, R87, R90) -/

section
variable {s : State} {c : CarId} {w : SwitchId}

/-- An intent matches when its code is the one the switch's kind and direction ask for (Table 5-2). -/
theorem intentMatches_iff {kind : SwitchKind} (lane : kind ≠ .pitExit) (intent : Option Intent) (direction : Direction) :
    intentMatches intent kind direction = true ↔ intent.map (·.code) =
      some (if kind = .pitEntry then LaneCode.pit else if direction = .inward then .shiftIn else .shiftOut) := by
  cases kind with
  | pitExit => exact absurd rfl lane
  | pitEntry => cases intent <;> simp [intentMatches]
  | crossover => cases direction <;> cases intent <;> simp [intentMatches]

theorem State.decideEntry_exit (exit : s.geo.switches[w].kind = .pitExit) : s.decideEntry c w = s.decideExit c w :=
  if_pos exit

section
variable (lane : s.geo.switches[w].kind ≠ .pitExit)
include lane

theorem State.decideEntry_asked
    (asked : intentMatches s.lane.intents[c] s.geo.switches[w].kind s.geo.switches[w].direction = true) :
    s.decideEntry c w = s.decidePassage c w := (if_neg lane).trans (if_pos asked)

theorem State.decideEntry_unasked
    (unasked : ¬ intentMatches s.lane.intents[c] s.geo.switches[w].kind s.geo.switches[w].direction = true) :
    s.decideEntry c w = if (s.switch w).mode.inMotion then s.setBusyCap c w else s :=
  (if_neg lane).trans (if_neg unasked)

end

theorem State.decidePassage_granted (passes : ∀ r ∈ laneOrder, ¬ s.fails c w r) :
    s.decidePassage c w = s.grant c w := by
  unfold State.decidePassage
  rw [(s.laneDecision_none c w).2 passes]

theorem State.decidePassage_denied {r : DecisionReason} (first : s.firstFails c w laneOrder r) :
    s.decidePassage c w = (if r = .busy then s.setBusyCap c w else s).tellDecision w c (.deny r) := by
  unfold State.decidePassage
  rw [(s.laneDecision_some c w r).2 first]
  rfl

/-- A hold in the statements' words: the hold list, the recheck, the PIT_HOLD cap and the notice. -/
theorem State.holdCar_eq (s : State) (c : CarId) (w : SwitchId) (reason : DecisionReason) :
    s.holdCar c w reason = ((s.putSwitch w { s.switch w with
      holds := (s.switch w).holds ++ [Hold.mk c reason],
      recheck := if (s.switch w).holds.isEmpty then some (addMs s.now 20) else (s.switch w).recheck }).putPitHold c
        (some w)).tellDecision w c (.hold reason) := by
  unfold State.holdCar
  simp only [State.modSwitch_eq_put]
  rfl

theorem State.decideExit_waits (behind : (s.switch w).holds ≠ []) : s.decideExit c w = s.holdCar c w .wait :=
  if_neg (by simpa using behind)

section
variable (exit : s.geo.switches[w].kind = .pitExit) (free : (s.switch w).holds = [])
include exit free

theorem State.decideExit_granted (passes : ∀ r ∈ exitOrder, ¬ s.fails c w r) : s.decideExit c w = s.grant c w := by
  unfold State.decideExit
  rw [if_pos (by simpa using free), (s.exitDecision_none c w exit).2 passes]

theorem State.decideExit_held {r : DecisionReason} (first : s.firstFails c w exitOrder r) :
    s.decideExit c w = s.holdCar c w r := by
  unfold State.decideExit
  rw [if_pos (by simpa using free), (s.exitDecision_some c w r exit).2 first]

end
end

/-! ## The decision at an entry sensor (R71 step 5) -/

section
variable {p : PortId} {n : SensorId} {c : CarId} {age : Byte} {z : ZoneId} {w : SwitchId} {s : State}

theorem exec_reportCrossing_entry (places : s.placesCrossing p n c (s.now - age.setWidth 32))
    (kind : s.geo.sensors[n].kind = .entry z w) :
    exec (.reportCrossing p (BitVec.ofNat 8 n.val) (BitVec.ofNat 8 (c.val + 1)) age) s =
      .next (((s.afterCrossing n z c (s.now - age.setWidth 32)).decideEntry c w).answer p (.done [0])) := by
  rw [exec_reportCrossing_handsOn places (some w) kind, State.handOn_eq, Option.elim_some]

/-- What the decision reads of the switch and of the car's intent is as before the crossing. -/
theorem State.afterCrossing_runState (s : State) (n : SensorId) (z : ZoneId) (c : CarId) (stamp : Time) (w : SwitchId) :
    ((s.afterCrossing n z c stamp).switch w).mode.runState = (s.switch w).mode.runState := by
  rw [State.afterCrossing_switch]
  split <;> exact SwitchMode.mapClaim_runState ..

theorem State.afterCrossing_intents (s : State) (n : SensorId) (z : ZoneId) (c : CarId) (stamp : Time) :
    (s.afterCrossing n z c stamp).lane.intents = s.lane.intents := by rw [State.afterCrossing_lane]

end

/-- Settles O38, by the intent, the switch's motion and the first failing check. -/
theorem entryDecisionFollowsTheChecks : Obligations.EntryDecisionFollowsTheChecks := by
  intro p n c age z w s places kind lane
  simp only
  rw [exec_reportCrossing_entry places kind]
  rw [← intentMatches_iff lane]
  have runs := s.afterCrossing_runState n z c (s.now - age.setWidth 32) w
  have intents := s.afterCrossing_intents n z c (s.now - age.setWidth 32)
  obtain ⟨-, geo, -, -, -, course, -, -, -, -⟩ := s.afterCrossing_fields n z c (s.now - age.setWidth 32)
  generalize s.afterCrossing n z c (s.now - age.setWidth 32) = u at *
  rw [← runs, ← intents, ← course, ← SwitchMode.inMotion_iff]
  rw [← geo] at lane ⊢
  refine ⟨fun unasked moves => ?_, fun unasked rests => ?_, fun asked passes => ?_, fun r asked first => ?_⟩
  · rw [State.decideEntry_unasked lane unasked, if_pos moves]
    rfl
  · rw [State.decideEntry_unasked lane unasked, if_neg rests]
  · rw [State.decideEntry_asked lane asked, State.decidePassage_granted passes]
  · rw [State.decideEntry_asked lane asked, State.decidePassage_denied first]
    refine ⟨fun free => ?_, ?_⟩
    · rw [if_neg free]
    · rintro rfl
      rfl

/-- Settles O39, by the hold list and the first failing check. -/
theorem pitExitHoldsOrGrants : Obligations.PitExitHoldsOrGrants := by
  intro p n c age z w s places kind exit
  simp only
  rw [exec_reportCrossing_entry places kind]
  obtain ⟨seq, geo, -⟩ := s.afterCrossing_fields n z c (s.now - age.setWidth 32)
  generalize s.afterCrossing n z c (s.now - age.setWidth 32) = u at *
  rw [← State.now_eq seq]
  rw [← geo] at exit
  rw [State.decideEntry_exit exit]
  refine ⟨fun behind => ?_, fun free passes => ?_, fun r free first => ?_⟩
  · rw [State.decideExit_waits behind, State.holdCar_eq, if_neg (by simpa using behind)]
  · rw [State.decideExit_granted exit free passes]
  · rw [State.decideExit_held exit free first, State.holdCar_eq, if_pos (by simpa using free)]
    rfl

end Sys2Proof.Machine
end

section
/-! TRACK CLEAR (R79, R110, R126): the switches one after another, against the notices of the statement. -/

namespace Sys2Proof.Machine

-- One after the other, the proofs need no thread each.
set_option Elab.async false

/-! ## Taking a request commutes with the clearing of a switch -/

section
variable (s : State) (p : PortId)

theorem State.taken_clearLane : (s.taken p).clearPositions.clearLane = s.clearPositions.clearLane.taken p := by
  have tracker : (s.taken p).clearPositions.clearLane.tracker = s.clearPositions.clearLane.tracker := by
    simp only [State.clearPositions, State.clearLane_fields, State.taken_fields]
  have lane : (s.taken p).clearPositions.clearLane.lane = s.clearPositions.clearLane.lane := by
    simp only [State.clearLane, State.clearPositions_fields, State.taken_fields]
  exact State.ext_blocks (tracker := by rw [tracker]; simp) (lane := by rw [lane]; simp)

theorem State.taken_announceClosed (w : SwitchId) (cl : Claim) (o : FinalOutcome) :
    (s.taken p).announceClosed w cl o = (s.announceClosed w cl o).taken p := s.taken_offerWithRaceControl p _ _

theorem State.taken_closeSet (w : SwitchId) (cl : Claim) (m : SwitchMode) (ps : Position) :
    (s.taken p).closeSet w cl m ps = (s.closeSet w cl m ps).taken p :=
  (s.restSwitch w m ps).taken_announceClosed p w cl _

theorem State.taken_faultReport (w : SwitchId) : (s.taken p).faultReport w = (s.faultReport w).taken p := by
  unfold State.faultReport
  simp only [State.taken_fields]
  split
  · exact State.taken_offerAll (s.putCourse .caution s.course.lampCount s.course.nextLamp) p _
  · rfl

theorem State.taken_announceFault (w : SwitchId) (cause : FaultCause) (left : RunState) :
    (s.taken p).announceFault w cause left = (s.announceFault w cause left).taken p := by
  have told : (s.taken p).offerWithRaceControl ((s.taken p).switchOwner w)
      (.switchFault w cause left (s.switch w).position) = _ := s.taken_offerWithRaceControl p _ _
  unfold State.announceFault
  simp only [State.taken_switch, told, State.taken_faultReport, State.taken_ite]
  rfl

theorem State.taken_restoreSwitch (w : SwitchId) (cl : Claim) :
    (s.taken p).restoreSwitch w cl = (s.restoreSwitch w cl).taken p := by
  have restored (u : State) (m : SwitchMode) (ps : Position) :
      ((u.taken p).setSwitch w m ps) = (u.setSwitch w m ps).taken p := rfl
  have owner : (s.taken p).switchOwner w = s.switchOwner w := rfl
  unfold State.restoreSwitch
  simp only [owner, State.taken_queueFull, State.taken_closeSet, State.taken_announceFault, State.taken_offerTo, restored,
    State.taken_announceClosed, State.taken_switch, State.taken_fields, State.taken_now, State.taken_ite]

theorem State.taken_clearSwitch (w : SwitchId) : (s.taken p).clearSwitch w = (s.clearSwitch w).taken p := by
  unfold State.clearSwitch
  rw [State.taken_switch]
  cases (s.switch w).mode.claim with
  | none => rfl
  | some cl => exact s.taken_restoreSwitch p w cl

end

/-! ## One switch (R110) -/

/-- What becomes of switch w, which state s holds, when its RESTORE is offered on state u. -/
def State.cleared (s u : State) (w : SwitchId) (st : SwitchState) : SwitchState :=
  if (s.switch w).mode.claim = none then st
  else if 32 ≤ (u.ports[s.geo.switches[w].owner]).queue.length then { st with mode := .faulted, position := .thrown }
  else { st with mode := .restoring (s.now + s.geo.switches[w].actuationTime.setWidth 32) }

section
variable (u : State) (w : SwitchId)

theorem State.closeSet_switch (k : SwitchId) (cl : Claim) (m : SwitchMode) (ps : Position) : (u.closeSet w cl m ps).switch k =
    if k = w then { u.switch k with mode := m, position := ps } else u.switch k := by
  rw [← State.restSwitch_switch]
  exact State.switch_eq (by simp) k

theorem State.clearSwitch_unclaimed (claim : (u.switch w).mode.claim = none) : u.clearSwitch w = u := by
  unfold State.clearSwitch
  rw [claim]

theorem State.clearSwitch_claimed {cl : Claim} (claim : (u.switch w).mode.claim = some cl) :
    u.clearSwitch w = u.restoreSwitch w cl := by
  unfold State.clearSwitch
  rw [claim]

theorem State.clearSwitch_switch (k : SwitchId) :
    (u.clearSwitch w).switch k = if k = w then u.cleared u w (u.switch k) else u.switch k := by
  unfold State.cleared
  cases claim : (u.switch w).mode.claim with
  | none =>
    rw [State.clearSwitch_unclaimed u w claim]
    simp
  | some cl =>
    rw [State.clearSwitch_claimed u w claim, if_neg (Option.some_ne_none cl)]
    by_cases full : 32 ≤ (u.ports[u.geo.switches[w].owner]).queue.length
    · rw [if_pos full, State.restoreSwitch_full cl full, ← State.closeSet_switch u w k cl]
      exact State.switch_eq (by simp) k
    · rw [if_neg full, State.restoreSwitch_queued cl (by omega), addMs_toNat]
      by_cases here : k = w
      · subst here
        rw [if_pos rfl]
        exact State.modSwitch_switch_self ..
      · rw [if_neg here]
        exact (State.modSwitch_switch ..).trans (if_neg here)

/-- In STOP no fault report follows a SWITCH_FAULT. -/
theorem State.announceFault_inStop {s : State} (w : SwitchId) (cause : FaultCause) (left : RunState)
    (stop : s.course.course = .stop) : s.announceFault w cause left =
      s.offerWithRaceControl (s.switchOwner w) (.switchFault w cause left (s.switch w).position) := by
  obtain told | told := s.announceFault_cases w cause left
  · exact told
  · obtain ⟨-, green, -⟩ | ⟨-, quiet⟩ := State.faultReport_cases
      (s.offerWithRaceControl (s.switchOwner w) (.switchFault w cause left (s.switch w).position)) w
    · exact absurd (stop.symm.trans green) (by decide)
    · exact told.trans quiet

/-- The notices of one switch; in STOP no fault report follows. -/
theorem State.clearSwitch_ports (stop : u.course.course = .stop) : (u.clearSwitch w).ports = (u.tellCleared u w).ports := by
  unfold State.tellCleared
  cases claim : (u.switch w).mode.claim with
  | none => rw [State.clearSwitch_unclaimed u w claim]
  | some cl =>
    rw [State.clearSwitch_claimed u w claim]
    by_cases room : (u.ports[u.geo.switches[w].owner]).queue.length < 32
    · simp only [if_pos room]
      rw [State.restoreSwitch_queued cl room]
      rfl
    · simp only [if_neg room]
      rw [State.restoreSwitch_full cl (by omega)]
      rw [State.announceFault_inStop w .restoreQueue _ (by simpa using stop), State.closeSet_switch, if_pos rfl]
      exact State.offerWithRaceControl_ports_congr (State.closeSet_fields ..).2.2.2.2.2.2.2.2.1 (by simp) _ _

end

end Sys2Proof.Machine
end

section
/-! TRACK CLEAR as a whole (R79, R110, R126). -/

namespace Sys2Proof.Machine

-- One after the other, the proofs need no thread each.
set_option Elab.async false

/-! ## What one switch leaves, and what it reads -/

/-- An offer to one port reads the ports and the time alone. -/
theorem State.offerTo_ports_congr {s t : State} (ports : s.ports = t.ports) (seq : s.seq = t.seq) (p : PortId)
    (body : NoticeBody) : (s.offerTo p body).ports = (t.offerTo p body).ports := by
  unfold State.offerTo State.offerWhere State.now
  rw [ports, seq]

theorem State.offerAll_ports_congr {s t : State} (ports : s.ports = t.ports) (seq : s.seq = t.seq) (body : NoticeBody) :
    (s.offerAll body).ports = (t.offerAll body).ports := by
  unfold State.offerAll State.offerWhere State.now
  rw [ports, seq]

/-- The notices of a switch touch the ports alone. -/
theorem State.tellCleared_portsOnly (s u : State) (w : SwitchId) :
    s.tellCleared u w = { u with ports := (s.tellCleared u w).ports } := by
  unfold State.tellCleared
  cases (s.switch w).mode.claim with
  | none => rfl
  | some cl =>
    simp only
    split <;> rfl

/-- The notices of a switch read its mode, the geometry, the ports and the time alone. -/
theorem State.tellCleared_ports_congr {s t u v : State} {w : SwitchId} (mode : (s.switch w).mode = (t.switch w).mode)
    (geo : s.geo = t.geo) (geos : u.geo = v.geo) (ports : u.ports = v.ports) (seq : u.seq = v.seq) :
    (s.tellCleared u w).ports = (t.tellCleared v w).ports := by
  have closed {a b : State} (geos : a.geo = b.geo) (ports : a.ports = b.ports) (seq : a.seq = b.seq) (cl : Claim) :
      (a.tellClosed w cl (.recorded cl.outcome)).ports = (b.tellClosed w cl (.recorded cl.outcome)).ports := by
    unfold State.tellClosed
    rw [geos]
    exact State.offerWithRaceControl_ports_congr ports seq _ _
  unfold State.tellCleared
  rw [mode]
  cases (t.switch w).mode.claim with
  | none => exact ports
  | some cl =>
    simp only [geo, ports]
    split
    · exact closed (a := u.offerTo _ _) (b := v.offerTo _ _) geos (State.offerTo_ports_congr ports seq _ _) seq cl
    · exact State.offerWithRaceControl_ports_congr (closed geos ports seq cl) seq _ _

theorem State.cleared_congr {s t u v : State} {w : SwitchId} (mode : (s.switch w).mode = (t.switch w).mode)
    (geo : s.geo = t.geo) (seq : s.seq = t.seq) (ports : u.ports = v.ports) (st : SwitchState) :
    s.cleared u w st = t.cleared v w st := by
  simp only [State.cleared, State.now, mode, geo, seq, ports]

theorem State.clearSwitch_course {u : State} (stop : u.course.course = .stop) (w : SwitchId) :
    (u.clearSwitch w).course = u.course := by
  unfold State.clearSwitch
  cases (u.switch w).mode.claim with
  | none => rfl
  | some cl =>
    simp only [State.restoreSwitch]
    split
    · rw [State.announceFault_inStop w .restoreQueue _ (by simpa using stop)]
      simp
    · simp

/-- In STOP a switch is cleared in the Lane Arbiter and the queues alone. -/
theorem State.clearSwitch_blocks {u : State} (stop : u.course.course = .stop) (w : SwitchId) :
    u.clearSwitch w = { u with lane := (u.clearSwitch w).lane, ports := (u.clearSwitch w).ports } := by
  have course := State.clearSwitch_course stop w
  unfold State.clearSwitch at *
  cases claim : (u.switch w).mode.claim with
  | none => rfl
  | some cl =>
    rw [claim] at course
    exact State.ext_blocks (course := course)

/-- No intent, cap or hold is kept. -/
def LaneArbiter.bare (lane : LaneArbiter) : Prop :=
  ∀ c : CarId, lane.intents[c] = none ∧ lane.conflictCaps[c] = none ∧ lane.busyCaps[c] = none ∧ lane.pitHolds[c] = none

theorem State.clearSwitch_bare {u : State} (bare : u.lane.bare) (w : SwitchId) : (u.clearSwitch w).lane.bare := by
  unfold State.clearSwitch State.restoreSwitch
  split
  · split
    · intro c
      obtain ⟨intent, conflict, busy, hold⟩ := bare c
      exact ⟨by simpa using intent, by simpa using conflict, by simpa using fun _ => busy, by simpa using hold⟩
    · intro c
      obtain ⟨intent, conflict, busy, hold⟩ := bare c
      exact ⟨by simpa using intent, by simpa using conflict, by simpa using busy, by simpa using hold⟩
  · exact bare

/-! ## The switches in ascending order (R126) -/

/-- The notices of the switches below k. -/
def State.toldTo (s : State) (k : Nat) : State := ((List.finRange 32).take k).foldl s.tellCleared s

/-- Where a clearing of the track stands when the switches below k have had their turn. -/
structure State.ClearedTo (s : State) (k : Nat) (u : State) : Prop where
  blocks : u = { s with tracker := s.clearPositions.tracker, lane := u.lane, ports := (s.toldTo k).ports }
  bare : u.lane.bare
  switches : ∀ w : SwitchId, u.switch w =
    if w.val < k then s.cleared (s.toldTo w.val) w (s.clearLane.switch w) else s.clearLane.switch w

theorem take_finRange_succ (w : SwitchId) :
    (List.finRange 32).take (w.val + 1) = (List.finRange 32).take w.val ++ [w] := by
  rw [List.take_succ_eq_append_getElem (by simp)]
  simp

theorem State.toldTo_succ (s : State) (w : SwitchId) : s.toldTo (w.val + 1) = s.tellCleared (s.toldTo w.val) w := by
  unfold State.toldTo
  rw [take_finRange_succ, List.foldl_append]
  rfl

theorem State.toldTo_portsOnly (s : State) (k : Nat) : s.toldTo k = { s with ports := (s.toldTo k).ports } := by
  unfold State.toldTo
  generalize (List.finRange 32).take k = l
  suffices kept : ∀ u : State, l.foldl s.tellCleared u = { u with ports := (l.foldl s.tellCleared u).ports } from kept s
  induction l with
  | nil => exact fun _ => rfl
  | cons w ws ih =>
    intro u
    rw [List.foldl_cons, ih, State.tellCleared_portsOnly]

section
variable {s : State}

theorem State.ClearedTo.start (s : State) : s.ClearedTo 0 s.clearPositions.clearLane where
  blocks := State.ext_blocks (ports := by simp [State.toldTo])
  bare c := State.clearLane_caps _ c
  switches w := by
    rw [if_neg (Nat.not_lt_zero _), State.clearLane_switch, State.clearLane_switch,
      State.switch_eq (congrArg LaneArbiter.switches (State.clearPositions_fields s).2.2.2.2.1)]

variable (stop : s.course.course = .stop)
include stop

theorem State.ClearedTo.next {u : State} {w : SwitchId} (h : s.ClearedTo w.val u) :
    s.ClearedTo (w.val + 1) (u.clearSwitch w) := by
  obtain ⟨blocks, bare, switches⟩ := h
  have seq : u.seq = s.seq := by rw [blocks]
  have geo : u.geo = s.geo := by rw [blocks]
  have ports : u.ports = (s.toldTo w.val).ports := by rw [blocks]
  have held : u.switch w = s.clearLane.switch w := by rw [switches, if_neg (lt_irrefl _)]
  have mode : (u.switch w).mode = (s.switch w).mode := by rw [held, State.clearLane_switch]
  have inStop : u.course.course = .stop := by rw [blocks]; exact stop
  refine ⟨?_, State.clearSwitch_bare bare w, fun k => ?_⟩
  · have told : (u.clearSwitch w).ports = (s.toldTo (w.val + 1)).ports := by
      rw [State.clearSwitch_ports u w inStop, State.toldTo_succ]
      exact State.tellCleared_ports_congr mode geo (geo.trans (by rw [State.toldTo_portsOnly])) ports
        (seq.trans (by rw [State.toldTo_portsOnly]))
    rw [← told, State.clearSwitch_blocks inStop, blocks]
  · rw [State.clearSwitch_switch, switches k]
    by_cases here : k = w
    · subst here
      rw [if_pos rfl, if_pos (Nat.lt_succ_self _), if_neg (lt_irrefl _)]
      exact State.cleared_congr mode geo seq ports _
    · have other : k.val < w.val + 1 ↔ k.val < w.val := by
        have := Fin.val_ne_of_ne here
        omega
      simp only [if_neg here, other]

theorem State.clearedTo_fold {k : Nat} (bound : k ≤ 32) :
    s.ClearedTo k (((List.finRange 32).take k).foldl State.clearSwitch s.clearPositions.clearLane) := by
  induction k with
  | zero => exact State.ClearedTo.start s
  | succ k ih =>
    have step := State.ClearedTo.next stop (w := ⟨k, bound⟩) (ih (by omega))
    rw [show k + 1 = (⟨k, bound⟩ : SwitchId).val + 1 from rfl, take_finRange_succ, List.foldl_append]
    exact step

end

/-! ## The request (R79, R110, R126) -/

/-- The track with every switch cleared. -/
def State.trackCleared (s : State) : State := (List.finRange 32).foldl State.clearSwitch s.clearPositions.clearLane

theorem State.trackCleared_clearedTo {s : State} (stop : s.course.course = .stop) : s.ClearedTo 32 s.trackCleared :=
  State.clearedTo_fold stop (k := 32) (le_refl _)

/-- The number of switches that held a claim and are in run state r when they all have had their turn. -/
def State.sentTo (s : State) (r : RunState) : Nat :=
  s.claimedSwitches.countP fun w => (s.trackCleared.switch w).mode.runState == r

theorem State.sentTo_eq (s : State) (r : RunState) : s.sentTo r =
    (List.finRange 32).countP fun w => (s.switch w).mode.claim.isSome && (s.trackCleared.switch w).mode.runState == r := by
  unfold State.sentTo State.claimedSwitches
  rw [List.countP_filter]
  exact List.countP_congr fun w _ => by rw [Bool.and_comm]

theorem State.taken_trackCleared (s : State) (p : PortId) : (s.taken p).trackCleared = s.trackCleared.taken p := by
  unfold State.trackCleared
  rw [State.taken_clearLane]
  exact State.taken_foldl _ p (fun u w => u.taken_clearSwitch p w) _

/-- TRACK CLEAR of race control. -/
theorem exec_trackClear {p : PortId} {s : State} (takes : s.takes p) (rights : (s.ports[p]).raceControl = true) :
    exec (.trackClear p) s = .next (if s.course.course ≠ .stop then s.answer p (.refused .state)
      else (s.trackCleared.offerAll (.trackClear (s.sentTo .restoring) (s.sentTo .faulted))).answer p (.done [])) := by
  have sent (r : RunState) : (s.taken p).sentTo r = s.sentTo r := by
    simp only [State.sentTo, State.claimedSwitches, State.taken_trackCleared, State.taken_switch]
  have cleared : ((s.taken p).trackCleared.offerAll (.trackClear ((s.taken p).sentTo .restoring)
      ((s.taken p).sentTo .faulted))).done p [] =
      (s.trackCleared.offerAll (.trackClear (s.sentTo .restoring) (s.sentTo .faulted))).answer p (.done []) := by
    rw [sent, sent, State.taken_trackCleared, State.taken_offerAll, State.taken_done]
  rw [← cleared, ← State.taken_refuse]
  change Host.Outcome.next (s.request p (·.reqTrackClear p)) = _
  unfold State.reqTrackClear
  rw [State.request_reserved _ takes rights]
  rfl

section
variable {s u : State} {w : SwitchId} (st : SwitchState)

theorem State.cleared_holds : (s.cleared u w st).holds = st.holds ∧ (s.cleared u w st).recheck = st.recheck := by
  unfold State.cleared
  split
  · exact ⟨rfl, rfl⟩
  · split <;> exact ⟨rfl, rfl⟩

theorem State.cleared_unclaimed (unclaimed : (s.switch w).mode.claim = none) : s.cleared u w st = st := if_pos unclaimed

section
variable (claimed : (s.switch w).mode.claim ≠ none)
include claimed

theorem State.cleared_full (full : 32 ≤ (u.ports[s.geo.switches[w].owner]).queue.length) :
    s.cleared u w st = { st with mode := .faulted, position := .thrown } := (if_neg claimed).trans (if_pos full)

theorem State.cleared_room (room : ¬ 32 ≤ (u.ports[s.geo.switches[w].owner]).queue.length) :
    s.cleared u w st = { st with mode := .restoring (s.now + s.geo.switches[w].actuationTime.setWidth 32) } :=
  (if_neg claimed).trans (if_neg room)

end
end

theorem State.toldTo_all (s : State) : s.toldTo 32 = (List.finRange 32).foldl s.tellCleared s := by
  unfold State.toldTo
  rw [List.take_of_length_le (by simp)]

/-! ## The track after it -/

section
variable {s u : State} (done : s.ClearedTo 32 u)
include done

theorem State.ClearedTo.tracker : u.tracker = s.clearPositions.tracker := by rw [done.blocks]

theorem State.ClearedTo.switch (w : SwitchId) :
    u.switch w = s.cleared (s.toldTo w.val) w { s.switch w with holds := [], recheck := none } := by
  rw [done.switches, if_pos w.isLt, State.clearLane_switch]

/-- The last notice and the answer leave what the statement lists. -/
theorem State.ClearedTo.answer (p : PortId) (body : NoticeBody) : (u.offerAll body).answer p (.done []) = { s with
    tracker := u.tracker, lane := u.lane, ports := (((s.toldTo 32).offerAll body).answer p (.done [])).ports } := by
  have told := State.offerAll_ports_congr (t := s.toldTo 32) (congrArg State.ports done.blocks :)
    (by rw [done.blocks, State.toldTo_portsOnly]) body
  have ports := State.answer_ports_congr told p (.done [])
  rw [← ports, done.blocks]
  rfl

end

/-- Settles O49, from where the clearing stands after all 32 switches. -/
theorem trackClearEmptiesTheTrack : Obligations.TrackClearEmptiesTheTrack := by
  intro p s takes rights
  rw [exec_trackClear takes rights]
  refine ⟨fun course => by rw [if_pos course], fun stop => ?_⟩
  rw [if_neg (not_not.2 stop)]
  have done := State.trackCleared_clearedTo stop
  simp only [State.sentTo_eq]
  generalize s.trackCleared = u at done ⊢
  refine ⟨_, rfl, fun c => ?_, fun z => ?_, fun w => ?_, ?_⟩
  · change u.tracker.cars[c] = _ ∧ _
    rw [done.tracker]
    exact ⟨s.clearPositions_cars c, done.bare c⟩
  · change u.tracker.lists[z] = []
    rw [done.tracker]
    exact s.clearPositions_lists z
  · change (u.switch w).holds = [] ∧ (u.switch w).recheck = none ∧
      (_ → (u.switch w).mode = _ ∧ (u.switch w).position = _) ∧
      (_ → (_ → (u.switch w).mode = _ ∧ (u.switch w).position = _) ∧ (_ → (u.switch w).mode = _ ∧ (u.switch w).position = _))
    rw [done.switch]
    obtain ⟨holds, recheck⟩ := State.cleared_holds (s := s) (u := s.toldTo w.val) (w := w)
      { s.switch w with holds := [], recheck := none }
    refine ⟨holds, recheck, fun unclaimed => ?_, fun claimed => ⟨fun room => ?_, fun full => ?_⟩⟩
    · rw [State.cleared_unclaimed _ unclaimed]
      exact ⟨rfl, rfl⟩
    · rw [State.cleared_room (u := s.toldTo w.val) _ claimed room]
      exact ⟨rfl, rfl⟩
    · rw [State.cleared_full (u := s.toldTo w.val) _ claimed full]
      exact ⟨rfl, rfl⟩
  · rw [← State.toldTo_all]
    exact done.answer p _

end Sys2Proof.Machine
end

section
/-! The hold book: what the invariant of the holds reads of the Lane Arbiter, and the commands that leave it (R90, R91,
R92). -/

namespace Sys2Proof.Machine

-- One after the other, the proofs need no thread each.
set_option Elab.async false

/-! ## The hold book -/

/-- The PIT_HOLD caps, and the hold list and recheck time of each switch. -/
def LaneArbiter.holdBook (lane : LaneArbiter) : Vector (Option SwitchId) 16 × Vector (List Hold × Option Time) 32 :=
  (lane.pitHolds, mapAll lane.switches fun _ st => (st.holds, st.recheck))

/-- The invariant of the holds reads the hold book alone. -/
theorem State.holdsOk_of_holdBook {s t : State} (ok : s.holdsOk) (book : t.lane.holdBook = s.lane.holdBook) :
    t.holdsOk := by
  obtain ⟨caps, lists⟩ := Prod.mk.inj book
  have same (w : SwitchId) : (t.switch w).holds = (s.switch w).holds ∧ (t.switch w).recheck = (s.switch w).recheck := by
    have entry := congrArg (·[w]) lists
    simp only [mapAll_get] at entry
    exact Prod.mk.inj entry
  have holds (w : SwitchId) := (same w).1
  have recheck (w : SwitchId) := (same w).2
  unfold State.holdsOk at *
  simp only [holds, recheck, caps]
  exact ok

/-- Intents, CONFLICT caps and BUSY caps stand in no hold book. -/
@[simp] theorem LaneArbiter.holdBook_sameHolds (lane : LaneArbiter) (intents : Vector (Option Intent) 16)
    (conflict : Vector (Option ConflictCap) 16) (busy : Vector (Option BusyCap) 16) :
    (LaneArbiter.mk intents lane.switches conflict busy lane.pitHolds).holdBook = lane.holdBook := rfl

/-- A switch's run state and position stand in no hold book. -/
@[simp] theorem LaneArbiter.holdBook_modAt (lane : LaneArbiter) (w : SwitchId) (mode : SwitchState → SwitchMode)
    (position : SwitchState → Position) (intents : Vector (Option Intent) 16)
    (conflict : Vector (Option ConflictCap) 16) (busy : Vector (Option BusyCap) 16) :
    (LaneArbiter.mk intents
      (modAt lane.switches w fun st => SwitchState.mk (mode st) (position st) st.holds st.recheck)
      conflict busy lane.pitHolds).holdBook = lane.holdBook := by
  refine congrArg (Prod.mk lane.pitHolds) (bank_ext fun k => ?_)
  rw [mapAll_get, mapAll_get, modAt_get]
  split <;> rfl

@[simp] theorem LaneArbiter.holdBook_mapAll (lane : LaneArbiter) (mode : SwitchState → SwitchMode)
    (position : SwitchState → Position) (intents : Vector (Option Intent) 16)
    (conflict : Vector (Option ConflictCap) 16) (busy : Vector (Option BusyCap) 16) :
    (LaneArbiter.mk intents
      (mapAll lane.switches fun _ st => SwitchState.mk (mode st) (position st) st.holds st.recheck)
      conflict busy lane.pitHolds).holdBook = lane.holdBook := by
  refine congrArg (Prod.mk lane.pitHolds) (bank_ext fun k => ?_)
  rw [mapAll_get, mapAll_get, mapAll_get]

/-! ## Replies, notices and applies -/

theorem State.portsOnly.holdBook {s t : State} (h : s.portsOnly t) : t.lane.holdBook = s.lane.holdBook := by rw [h]

section
variable (s : State) (p : PortId)

@[simp] theorem State.refuseRange_holdBook (places : List Byte) :
    (s.refuseRange p places).lane.holdBook = s.lane.holdBook := by
  unfold State.refuseRange
  split <;> simp

/-- A reserved request is refused, or it leaves the hold book as what it carries out does. -/
theorem State.reserved_holdBook {op : State → State} (h : (op s).lane.holdBook = s.lane.holdBook) :
    (s.reserved p op).lane.holdBook = s.lane.holdBook := by
  unfold State.reserved
  split
  · exact h
  · simp

theorem State.reqTake_holdBook : (s.reqTake p).lane.holdBook = s.lane.holdBook := by
  unfold State.reqTake
  split <;> simp

theorem State.reqPortSet_holdBook (attentionLevel shedLevel : Byte) :
    (s.reqPortSet p attentionLevel shedLevel).lane.holdBook = s.lane.holdBook := by
  unfold State.reqPortSet
  split <;> simp

theorem State.reqSelect_holdBook (table index : Byte) :
    (s.reqSelect p table index).lane.holdBook = s.lane.holdBook := by
  unfold State.reqSelect
  split <;> simp

theorem State.reqFetch_holdBook : (s.reqFetch p).lane.holdBook = s.lane.holdBook := by
  unfold State.reqFetch
  split <;> simp

@[simp] theorem State.applyDone_holdBook (ref : RecordRef) : (s.applyDone p ref).lane.holdBook = s.lane.holdBook :=
  (s.modPort_portsOnly p _).holdBook

@[simp] theorem State.rebind_holdBook (c : CarId) (held : Option Held) (f : Binding → Binding) :
    (s.rebind c held f).lane.holdBook = s.lane.holdBook := by
  have carried (old new : Option Ident) : (s.carryIdentity c old new).lane.holdBook = s.lane.holdBook := by
    rw [State.carryIdentity_caps]
    rfl
  unfold State.rebind
  simp [carried]

/-- Of the records, a binding alone has a neighbour in the Lane Arbiter, the car's intent (R45). -/
@[simp] theorem State.applyRecord_holdBook (ref : RecordRef) (image : List Byte) :
    (s.applyRecord p ref image).lane.holdBook = s.lane.holdBook := by
  cases ref with
  | zone z =>
    change (s.applyZone p z image).lane.holdBook = _
    unfold State.applyZone
    split <;> simp
  | switch w =>
    change (s.applySwitch p w image).lane.holdBook = _
    unfold State.applySwitch
    split <;> simp
  | sensor n =>
    change (s.applySensor p n image).lane.holdBook = _
    unfold State.applySensor
    split <;> simp
  | settings =>
    change (s.applySettings p image).lane.holdBook = _
    unfold State.applySettings
    split <;> simp
  | marshal m =>
    change (s.applyMarshal p m image).lane.holdBook = _
    unfold State.applyMarshal
    dsimp only
    split <;> simp
  | binding c =>
    change (s.applyBinding p c image).lane.holdBook = _
    unfold State.applyBinding
    repeat' split
    all_goals simp
  | handset h | car c => exact (s.modPort_portsOnly p _).holdBook

@[simp] theorem State.applyStaged_holdBook (st : Staging) : (s.applyStaged p st).lane.holdBook = s.lane.holdBook := by
  unfold State.applyStaged
  dsimp only
  repeat' split
  all_goals simp

theorem State.reqApply_holdBook : (s.reqApply p).lane.holdBook = s.lane.holdBook := by
  unfold State.reqApply
  split <;> simp

theorem State.reqPut_holdBook (values : List Byte) : (s.reqPut p values).lane.holdBook = s.lane.holdBook := by
  unfold State.reqPut
  dsimp only
  repeat' split
  all_goals simp

/-! ## The course, the pit, the locks, the layout and the store -/

@[simp] theorem State.toStop_holdBook (cause : CourseCause) : (s.toStop cause).lane.holdBook = s.lane.holdBook := rfl

@[simp] theorem State.toCaution_holdBook (cause : CourseCause) :
    (s.toCaution cause).lane.holdBook = s.lane.holdBook := rfl

theorem State.reqStart_holdBook : (s.reqStart p).lane.holdBook = s.lane.holdBook :=
  s.reserved_holdBook p <| by
    repeat' split
    all_goals simp

theorem State.reqStop_holdBook : (s.reqStop p).lane.holdBook = s.lane.holdBook :=
  s.reserved_holdBook p <| by split <;> simp

theorem State.reqCaution_holdBook : (s.reqCaution p).lane.holdBook = s.lane.holdBook :=
  s.reserved_holdBook p <| by split <;> simp

theorem State.reqGreen_holdBook : (s.reqGreen p).lane.holdBook = s.lane.holdBook :=
  s.reserved_holdBook p <| by split <;> simp

theorem State.reqPit_holdBook (opened : Bool) : (s.reqPit p opened).lane.holdBook = s.lane.holdBook :=
  s.reserved_holdBook p <| by split <;> simp

theorem State.reqZoneLock_holdBook (zone lock : Byte) : (s.reqZoneLock p zone lock).lane.holdBook = s.lane.holdBook :=
  s.reserved_holdBook p <| by
    dsimp only
    repeat' split
    all_goals simp

theorem State.reqLayoutRun_holdBook : (s.reqLayoutRun p).lane.holdBook = s.lane.holdBook :=
  s.reserved_holdBook p <| by
    repeat' split
    all_goals simp

theorem State.reqSwitch_holdBook (r : SwitchRequest) (switch : Byte) :
    (s.reqSwitch p r switch).lane.holdBook = s.lane.holdBook :=
  s.reserved_holdBook p <| by
    repeat' split
    all_goals simp

theorem State.reqOpenPairing_holdBook (seconds : Byte) : (s.reqOpenPairing p seconds).lane.holdBook = s.lane.holdBook :=
  s.reserved_holdBook p <| by
    repeat' split
    all_goals simp

theorem State.reqClosePairing_holdBook : (s.reqClosePairing p).lane.holdBook = s.lane.holdBook :=
  s.reserved_holdBook p <| by split <;> simp

theorem State.reqRelease_holdBook (car : Byte) : (s.reqRelease p car).lane.holdBook = s.lane.holdBook :=
  s.reserved_holdBook p <| by
    repeat' split
    all_goals simp

theorem State.reqStoreSave_holdBook (row : Byte) : (s.reqStoreSave p row).lane.holdBook = s.lane.holdBook :=
  s.reserved_holdBook p <| by
    repeat' split
    all_goals simp

end

/-! ## Handset reports (R22 to R55) -/

section
variable (s : State)

@[simp] theorem State.moveBinding_holdBook (c : CarId) (source : HeldState → Bool) (target : HeldState) :
    (s.moveBinding c source target).lane.holdBook = s.lane.holdBook := by
  obtain ⟨_, -, -, e⟩ | ⟨-, e⟩ := s.moveBinding_cases c source target <;> rw [e]
  simp

@[simp] theorem State.announceLink_holdBook (r : Handset) : (s.announceLink r).lane.holdBook = s.lane.holdBook :=
  (s.announceLink_portsOnly r).holdBook

@[simp] theorem State.handLive_holdBook (r : Handset) : (s.handLive r).lane.holdBook = s.lane.holdBook := by
  unfold State.handLive
  cases r.boundCar <;> simp

@[simp] theorem State.handLost_holdBook (r : Handset) : (s.handLost r).lane.holdBook = s.lane.holdBook := by
  unfold State.handLost
  cases r.boundCar <;> simp

@[simp] theorem State.announcePair_holdBook (station : PortId) (i : Ident) (result : PairResult) (c : Option CarId) :
    (s.announcePair station i result c).lane.holdBook = s.lane.holdBook := rfl

@[simp] theorem State.pairWith_holdBook (i : Ident) (o : Offer) : (s.pairWith i o).lane.holdBook = s.lane.holdBook := by
  unfold State.pairWith
  cases s.carOf i <;> simp

@[simp] theorem State.pairEdge_holdBook (i : Ident) (marshal : Bool) (station : PortId) (strength : BitVec 4) :
    (s.pairEdge i marshal station strength).lane.holdBook = s.lane.holdBook := by
  unfold State.pairEdge
  repeat' split
  all_goals simp

@[simp] theorem State.marshalEdge_holdBook (i : Ident) (live : Bool) (code : LaneCode) (station : PortId) :
    (s.marshalEdge i live code station).lane.holdBook = s.lane.holdBook := by
  unfold State.marshalEdge
  dsimp only
  repeat' split
  all_goals simp

@[simp] theorem State.laneEdge_holdBook (i : Ident) (code : LaneCode) :
    (s.laneEdge i code).lane.holdBook = s.lane.holdBook := by
  unfold State.laneEdge
  repeat' split
  all_goals rfl

@[simp] theorem State.handEdge_holdBook (r : Handset) (station : PortId) (strength : BitVec 4) :
    (s.handEdge r station strength).lane.holdBook = s.lane.holdBook := by
  unfold State.handEdge
  repeat' split
  all_goals simp

/-- Of the four steps of R26, the edge alone may reach the Lane Arbiter, and it sets an intent. -/
@[simp] theorem State.acceptReport_holdBook (p : PortId) (h : HandsetId) (old : Handset) (rep : Report)
    (link : LinkState) : (s.acceptReport p h old rep link).lane.holdBook = s.lane.holdBook := by
  have moved (u : State) (r : Handset) : (u.moveLink h r link).lane.holdBook = u.lane.holdBook := by
    unfold State.moveLink
    dsimp only
    repeat' split
    all_goals simp
  have battery (u : State) (r : Handset) : (u.batteryStep r old.batteryLow).lane.holdBook = u.lane.holdBook := by
    unfold State.batteryStep
    split <;> simp
  have validated (u : State) : (u.validate h rep p).lane.holdBook = u.lane.holdBook := by
    unfold State.validate
    dsimp only
    repeat' split
    all_goals simp
  unfold State.acceptReport State.reportDone
  simp [moved, battery, validated]

theorem State.reqReportHandset_holdBook (p : PortId) (identity : Ident) (count throttle code battery strength : Byte) :
    (s.reqReportHandset p identity count throttle code battery strength).lane.holdBook = s.lane.holdBook := by
  have first (rep : Report) : (s.firstReport p rep).lane.holdBook = s.lane.holdBook := by
    unfold State.firstReport State.reportDone
    repeat' split
    all_goals simp
  have known (h : HandsetId) (r : Handset) (rep : Report) :
      (s.knownReport p h r rep).lane.holdBook = s.lane.holdBook := by
    unfold State.knownReport State.reportDone
    dsimp only
    repeat' split
    all_goals simp
  unfold State.reqReportHandset State.filterReport
  dsimp only
  split
  · split
    · next h _ => cases s.handsets.records[h] <;> simp [known]
    · exact first _
  · exact s.refuseRange_holdBook p _

end

/-! ## Events -/

/-- The outcome o of a command is a next state with the hold book of s. -/
def State.leavesHoldBook (s : State) (o : Host.Outcome State Fault Refusal) : Prop :=
  ∃ t : State, o = .next t ∧ t.lane.holdBook = s.lane.holdBook

section
variable {s : State}

theorem State.leavesHoldBook.next {t : State} (h : t.lane.holdBook = s.lane.holdBook) : s.leavesHoldBook (.next t) :=
  ⟨t, rfl, h⟩

/-- An event that is not due changes nothing. -/
theorem State.leavesHoldBook.due {due : Prop} [Decidable due] {t : State} (h : t.lane.holdBook = s.lane.holdBook) :
    s.leavesHoldBook (if due then .next t else .next s) := by
  split
  · exact .next h
  · exact .next rfl

end

section
variable (s : State)

@[simp] theorem State.grant_holdBook (c : CarId) (w : SwitchId) : (s.grant c w).lane.holdBook = s.lane.holdBook := by
  unfold State.grant
  dsimp only
  repeat' split
  all_goals simp

@[simp] theorem State.restoreSwitch_holdBook (w : SwitchId) (cl : Claim) :
    (s.restoreSwitch w cl).lane.holdBook = s.lane.holdBook := by
  unfold State.restoreSwitch
  split <;> simp

theorem execActuationDeadline_holdBook (w : SwitchId) : s.leavesHoldBook (execActuationDeadline w s) := by
  unfold execActuationDeadline
  split
  case h_1 => exact .due (by simp)
  all_goals exact .next rfl

theorem execHoldDeadline_holdBook (w : SwitchId) : s.leavesHoldBook (execHoldDeadline w s) := by
  unfold execHoldDeadline
  split
  case h_1 => exact .due (by simp)
  all_goals exact .next rfl

theorem execRestoringActuationDeadline_holdBook (w : SwitchId) :
    s.leavesHoldBook (execRestoringActuationDeadline w s) := by
  unfold execRestoringActuationDeadline
  split
  case h_1 => exact .due (by simp)
  all_goals exact .next rfl

theorem execStall_holdBook (c : CarId) : s.leavesHoldBook (execStall c s) := by
  unfold execStall
  split
  · exact .due rfl
  · exact .next rfl

theorem execStaleExpiry_holdBook (h : HandsetId) : s.leavesHoldBook (execStaleExpiry h s) := by
  unfold execStaleExpiry
  split
  · exact .due (by simp)
  · exact .next rfl

theorem execHandsetLostExpiry_holdBook (h : HandsetId) : s.leavesHoldBook (execHandsetLostExpiry h s) := by
  unfold execHandsetLostExpiry
  split
  · exact .due (by simp)
  · exact .next rfl

theorem execLampExpiry_holdBook : s.leavesHoldBook (execLampExpiry s) := by
  unfold execLampExpiry
  repeat' split
  all_goals exact .next rfl

theorem State.foldl_holdBook {α : Type} {f : State → α → State}
    (h : ∀ (u : State) (a : α), (f u a).lane.holdBook = u.lane.holdBook) (l : List α) :
    (l.foldl f s).lane.holdBook = s.lane.holdBook := by
  induction l generalizing s with
  | nil => rfl
  | cons a as ih => exact (ih (f s a)).trans (h s a)

theorem execRestore_holdBook : s.leavesHoldBook (execRestore s) := by
  have marshal (u : State) (m : MarshalId) : (u.restoreMarshal m).lane.holdBook = u.lane.holdBook := by
    unfold State.restoreMarshal
    dsimp only
    split <;> simp
  have car (u : State) (c : CarId) : (u.restoreCar c).lane.holdBook = u.lane.holdBook := by
    unfold State.restoreCar
    dsimp only
    split <;> simp
  have rows : s.restoreRows.lane.holdBook = s.lane.holdBook :=
    (State.foldl_holdBook _ car _).trans (s.foldl_holdBook marshal _)
  unfold execRestore
  dsimp only
  generalize s.restoreRows = u at rows
  exact .due rows

/-! ### The Bind Store (R143 to R146) -/

@[simp] theorem State.chooseCommit_holdBook : s.chooseCommit.lane.holdBook = s.lane.holdBook := by
  unfold State.chooseCommit
  cases s.autoChoice <;> simp

@[simp] theorem State.setMark_holdBook (r : RowId) (mark : Mark) :
    (s.setMark r mark).lane.holdBook = s.lane.holdBook := by
  rw [State.setMark_eq]

@[simp] theorem State.storeDone_holdBook (c : Commit) (outcome : StoreOutcome) :
    (s.storeDone c outcome).lane.holdBook = s.lane.holdBook := by
  unfold State.storeDone
  split <;> simp

theorem execWriterStepEnd_holdBook : s.leavesHoldBook (execWriterStepEnd s) := by
  unfold execWriterStepEnd
  split
  case h_1 => exact .due rfl
  all_goals exact .next rfl

theorem execCommitCompletion_holdBook : s.leavesHoldBook (execCommitCompletion s) := by
  have completed (c : Commit) : (s.completeCommit c).lane.holdBook = s.lane.holdBook := by
    unfold State.completeCommit
    dsimp only
    split <;> simp
  unfold execCommitCompletion
  split
  case h_1 c _ => exact .due (completed c)
  all_goals exact .next rfl

theorem execStweFall_holdBook : s.leavesHoldBook (execStweFall s) := by
  have cut (u : State) (c : Commit) : (u.cutCommit c).lane.holdBook = u.lane.holdBook := by
    unfold State.cutCommit
    split <;> simp
  refine .due ?_
  cases s.store.writer.commit with
  | none => rfl
  | some c => exact cut _ c

end

end Sys2Proof.Machine
end

section
/-! Every step keeps hold lists, PIT_HOLD caps and recheck times in step: a car joins and leaves its list together with
its cap, a recheck moves its time, and every other command leaves the hold book (R90, R91, R92). -/

namespace Sys2Proof.Machine

-- One after the other, the proofs need no thread each.
set_option Elab.async false

/-! ## A car joins and leaves (R90, R91, R92) -/

/-- The cars that switch w holds, in the order of its list. -/
def State.heldCars (s : State) (w : SwitchId) : List CarId := (s.switch w).holds.map (·.car)

theorem State.holdsOk_iff (s : State) : s.holdsOk ↔
    (∀ (w : SwitchId) (c : CarId), c ∈ s.heldCars w ↔ s.lane.pitHolds[c] = some w) ∧
      (∀ w : SwitchId, (s.heldCars w).Nodup) ∧
      ∀ w : SwitchId, (s.switch w).recheck = none ↔ (s.switch w).holds = [] := by
  unfold State.holdsOk State.heldCars
  simp only [List.mem_map]

/-- A switch's holds rewritten for the same cars, with a recheck time while there are any. -/
theorem State.modSwitch_holdsOk {s : State} (ok : s.holdsOk) {w : SwitchId} {f : SwitchState → SwitchState}
    (cars : (f (s.switch w)).holds.map (·.car) = s.heldCars w)
    (recheck : (f (s.switch w)).recheck = none ↔ (f (s.switch w)).holds = []) : (s.modSwitch w f).holdsOk := by
  obtain ⟨caps, once, rechecks⟩ := s.holdsOk_iff.1 ok
  have same (k : SwitchId) : (s.modSwitch w f).heldCars k = s.heldCars k := by
    unfold State.heldCars
    rw [State.modSwitch_switch]
    split
    · next here => rw [here]; exact cars
    · rfl
  refine (State.holdsOk_iff _).2 ⟨fun k c => ?_, fun k => ?_, fun k => ?_⟩
  · rw [same]
    exact caps k c
  · rw [same]
    exact once k
  · rw [State.modSwitch_switch]
    split
    · next here => rw [here]; exact recheck
    · exact rechecks k

theorem State.endHold_switch (s : State) (c : CarId) (w k : SwitchId) :
    (s.endHold c w).switch k = if k = w then (s.switch k).without c else s.switch k := by
  rw [State.endHold_eq]
  exact s.modSwitch_switch w k _

theorem State.endHold_pitHolds (s : State) (c : CarId) (w : SwitchId) (d : CarId) :
    (s.endHold c w).lane.pitHolds[d] = if d = c then none else s.lane.pitHolds[d] :=
  modAt_get s.lane.pitHolds c d _

theorem State.endHold_heldCars (s : State) (c : CarId) (w k : SwitchId) :
    (s.endHold c w).heldCars k = if k = w then (s.heldCars k).filter (· ≠ c) else s.heldCars k := by
  unfold State.heldCars
  rw [State.endHold_switch]
  split
  · exact (List.filter_map (f := Hold.car) (p := (· ≠ c))).symm
  · rfl

/-- A held car leaves its list, the cap with it, and the recheck time with the last car. -/
theorem State.endHold_holdsOk {s : State} (ok : s.holdsOk) {c : CarId} {w : SwitchId}
    (held : s.lane.pitHolds[c] = some w) : (s.endHold c w).holdsOk := by
  obtain ⟨caps, once, rechecks⟩ := s.holdsOk_iff.1 ok
  refine (State.holdsOk_iff _).2 ⟨fun k d => ?_, fun k => ?_, fun k => ?_⟩
  · have stays : d ∈ (s.endHold c w).heldCars k ↔ d ∈ s.heldCars k ∧ d ≠ c := by
      rw [State.endHold_heldCars]
      split
      · simp
      · next other =>
        refine (and_iff_left_of_imp fun mem => ?_).symm
        rintro rfl
        exact other (Option.some.inj (((caps k d).1 mem).symm.trans held))
    rw [stays, caps, State.endHold_pitHolds]
    split
    · next gone => simp [gone]
    · next other => exact and_iff_left other
  · rw [State.endHold_heldCars]
    split
    · exact (once k).filter _
    · exact once k
  · rw [State.endHold_switch]
    split
    · by_cases left : (s.switch k).holds.filter (·.car ≠ c) = []
      · exact iff_of_true (if_pos left) left
      · refine iff_of_false (fun none => left ?_) left
        have empty := (rechecks k).1 ((if_neg left).symm.trans none)
        rw [empty, List.filter_nil]
    · exact rechecks k

theorem State.holdCar_switch (s : State) (c : CarId) (w : SwitchId) (reason : DecisionReason) (k : SwitchId) :
    (s.holdCar c w reason).switch k = if k = w then { s.switch k with
      holds := (s.switch k).holds ++ [Hold.mk c reason],
      recheck := if (s.switch k).holds.isEmpty then some (addMs s.now 20) else (s.switch k).recheck } else s.switch k :=
  s.modSwitch_switch w k _

theorem State.holdCar_pitHolds (s : State) (c : CarId) (w : SwitchId) (reason : DecisionReason) (d : CarId) :
    (s.holdCar c w reason).lane.pitHolds[d] = if d = c then some w else s.lane.pitHolds[d] :=
  modAt_get s.lane.pitHolds c d _

theorem State.holdCar_heldCars (s : State) (c : CarId) (w : SwitchId) (reason : DecisionReason) (k : SwitchId) :
    (s.holdCar c w reason).heldCars k = if k = w then s.heldCars k ++ [c] else s.heldCars k := by
  unfold State.heldCars
  rw [State.holdCar_switch]
  split
  · exact List.map_append
  · rfl

/-- A car that no list holds joins one, with its cap and, on an empty list, a recheck time. -/
theorem State.holdCar_holdsOk {s : State} (ok : s.holdsOk) {c : CarId} (free : s.lane.pitHolds[c] = none) (w : SwitchId)
    (reason : DecisionReason) : (s.holdCar c w reason).holdsOk := by
  obtain ⟨caps, once, rechecks⟩ := s.holdsOk_iff.1 ok
  have fresh (k : SwitchId) : c ∉ s.heldCars k := fun mem =>
    Option.some_ne_none k (((caps k c).1 mem).symm.trans free)
  refine (State.holdsOk_iff _).2 ⟨fun k d => ?_, fun k => ?_, fun k => ?_⟩
  · rw [State.holdCar_heldCars, State.holdCar_pitHolds]
    by_cases joins : d = c
    · subst joins
      rw [if_pos rfl, Option.some.injEq]
      split
      · next here => simp [here]
      · next other => exact iff_of_false (fresh k) (Ne.symm other)
    · rw [if_neg joins, ← caps]
      split
      · simp [joins]
      · rfl
  · rw [State.holdCar_heldCars]
    split
    · exact List.concat_eq_append ▸ (once k).concat (fresh k)
    · exact once k
  · rw [State.holdCar_switch]
    split
    · refine iff_of_false ?_ (by simp)
      simp only [List.isEmpty_iff]
      split
      · exact Option.some_ne_none _
      · next some => exact fun none => some ((rechecks k).1 none)
    · exact rechecks k

/-! ## Switches and the ends of passages (R85, R97 to R105) -/

section
variable (s : State)

theorem State.reqReportSwitch_holdBook (p : PortId) (switch kind position : Byte) :
    (s.reqReportSwitch p switch kind position).lane.holdBook = s.lane.holdBook := by
  have thrown (w : SwitchId) : (s.takeThrown p w).lane.holdBook = s.lane.holdBook := by
    unfold State.takeThrown
    split <;> simp
  have returned (w : SwitchId) : (s.takeReturned p w).lane.holdBook = s.lane.holdBook := by
    unfold State.takeReturned
    split <;> simp
  have jammed (w : SwitchId) (ps : Position) : (s.takeJammed p w ps).lane.holdBook = s.lane.holdBook := by
    unfold State.takeJammed
    dsimp only
    split <;> simp
  unfold State.reqReportSwitch
  split
  · simp
  · split
    · simp
    · next w _ =>
      repeat' split
      · simp
      · exact thrown w
      · exact returned w
      · cases positionOf position with
        | none => simp
        | some ps => exact jammed w ps
      · simp

@[simp] theorem State.reconcileAt_holdBook (c : CarId) (n : SensorId) (lane : Byte) (w : SwitchId) :
    (State.reconcileAt c n lane s w).lane.holdBook = s.lane.holdBook := by
  unfold State.reconcileAt
  dsimp only
  repeat' split
  all_goals simp

theorem State.reconcile_holdBook (c : CarId) (n : SensorId) (lane : Byte) :
    (s.reconcile c n lane).lane.holdBook = s.lane.holdBook :=
  s.foldl_holdBook (fun u w => u.reconcileAt_holdBook c n lane w) _

theorem State.clearSwitch_holdBook (w : SwitchId) : (s.clearSwitch w).lane.holdBook = s.lane.holdBook := by
  unfold State.clearSwitch
  split <;> simp

end

/-! ## Crossings and decisions (R71, R86 to R93) -/

/-- A car's crossing ends its hold, if it has one. -/
theorem State.endCapsByCrossing_holdsOk {s : State} (ok : s.holdsOk) (c : CarId) : (s.endCapsByCrossing c).holdsOk := by
  unfold State.endCapsByCrossing
  dsimp only
  split
  · next held => exact State.endHold_holdsOk (State.holdsOk_of_holdBook ok rfl) held
  · exact State.holdsOk_of_holdBook ok rfl

theorem State.handOver_holdsOk {s : State} (ok : s.holdsOk) (n : SensorId) (z : ZoneId) (c : CarId) (stamp : Time) :
    (s.handOver n z c stamp).holdsOk := by
  have reconciled := State.holdsOk_of_holdBook ok (s.reconcile_holdBook c n s.geo.zones[z].lane)
  refine State.holdsOk_of_holdBook (State.endCapsByCrossing_holdsOk reconciled c) ?_
  unfold State.handOver
  rw [State.jumpTest_lane, State.conflictTest_lane, LaneArbiter.holdBook_sameHolds]

/-- Whatever car a crossing has been handed on for is held nowhere. -/
theorem State.handOver_free (s : State) (n : SensorId) (z : ZoneId) (c : CarId) (stamp : Time) :
    (s.handOver n z c stamp).lane.pitHolds[c] = none := by
  unfold State.handOver
  generalize s.reconcile c n s.geo.zones[z].lane = u
  rw [State.jumpTest_lane, State.conflictTest_lane, State.endCapsByCrossing_lane]
  exact modAt_get_self u.lane.pitHolds c _

section
variable {s : State} (ok : s.holdsOk)
include ok

theorem State.decideEntry_holdsOk {c : CarId} (free : s.lane.pitHolds[c] = none) (w : SwitchId) :
    (s.decideEntry c w).holdsOk := by
  have stays {t : State} : t.lane.holdBook = s.lane.holdBook → t.holdsOk := State.holdsOk_of_holdBook ok
  have exit : (s.decideExit c w).holdsOk := by
    unfold State.decideExit
    split
    · split
      · exact stays (s.grant_holdBook c w)
      · exact State.holdCar_holdsOk ok free w _
    · exact State.holdCar_holdsOk ok free w _
  have passage : (s.decidePassage c w).lane.holdBook = s.lane.holdBook := by
    unfold State.decidePassage
    repeat' split
    all_goals simp
  unfold State.decideEntry
  dsimp only
  repeat' split
  · exact exit
  · exact stays passage
  · exact stays (by simp)
  · exact ok

theorem State.trackCrossing_holdsOk (p : PortId) (n : SensorId) (z : ZoneId) (w : Option SwitchId) (c : CarId)
    (stamp : Time) : (s.trackCrossing p n z w c stamp).holdsOk := by
  have placed : ((s.placeCrossing n z c stamp).handOn n z w c stamp).holdsOk := by
    have moved : (s.placeCrossing n z c stamp).holdsOk := State.holdsOk_of_holdBook ok (by simp)
    have handed := State.handOver_holdsOk moved n z c stamp
    have free := (s.placeCrossing n z c stamp).handOver_free n z c stamp
    unfold State.handOn
    generalize (s.placeCrossing n z c stamp).handOver n z c stamp = u at handed free
    cases w with
    | none => exact handed
    | some w => exact State.decideEntry_holdsOk handed free w
  unfold State.trackCrossing State.crossingDone
  repeat' split
  · exact State.holdsOk_of_holdBook ok (by simp)
  · exact State.holdsOk_of_holdBook ok (by simp)
  · exact State.holdsOk_of_holdBook placed (by simp)

theorem State.reqReportCrossing_holdsOk (p : PortId) (sensor car age : Byte) :
    (s.reqReportCrossing p sensor car age).holdsOk := by
  have refused (r : Reason) : (s.refuse p r).holdsOk := State.holdsOk_of_holdBook ok (by simp)
  unfold State.reqReportCrossing
  repeat' split
  · exact refused _
  · exact refused _
  · exact refused _
  · exact refused _
  · unfold State.pairingCrossing State.crossingDone
    refine State.holdsOk_of_holdBook ok ?_
    split <;> simp
  · exact State.trackCrossing_holdsOk ok ..
  · exact State.trackCrossing_holdsOk ok ..

/-! ## The recheck (R91) -/

omit ok in
theorem State.announceDecision_holdBook (w : SwitchId) (c : CarId) (d : Decision) :
    (s.announceDecision w c d).lane.holdBook = s.lane.holdBook := by simp

/-- Granted, the head leaves its list; held for a new reason, its entry stays the head's. -/
theorem State.recheckHead_holdsOk {w : SwitchId} {head : Hold} {rest : List Hold}
    (holds : (s.switch w).holds = head :: rest) : (s.recheckHead w head).holdsOk := by
  have held : s.lane.pitHolds[head.car] = some w := (ok.1 w head.car).1 ⟨head, by simp [holds], rfl⟩
  have timed : (s.switch w).recheck ≠ none := fun none => by simp [(ok.2.2 w).1 none] at holds
  unfold State.recheckHead
  repeat' split
  · exact State.holdsOk_of_holdBook (State.endHold_holdsOk ok held) (State.grant_holdBook ..)
  · exact ok
  · refine State.holdsOk_of_holdBook (State.modSwitch_holdsOk ok (w := w) ?_ ?_) (State.announceDecision_holdBook ..)
    · simp [State.heldCars, holds]
    · simpa using timed

theorem execPitExitRecheck_holdsOk (w : SwitchId) : ∃ t : State, execPitExitRecheck w s = .next t ∧ t.holdsOk := by
  unfold execPitExitRecheck
  split
  · next holds _ =>
    split
    · refine ⟨_, rfl, State.modSwitch_holdsOk (State.recheckHead_holdsOk ok holds) rfl ?_⟩
      cases ((s.recheckHead w _).switch w).holds <;> simp
    · exact ⟨_, rfl, ok⟩
  all_goals exact ⟨_, rfl, ok⟩

end

/-! ## Track clear and layout edit (R16, R79, R110) -/

theorem State.clearLane_holdsOk (s : State) : s.clearLane.holdsOk :=
  State.holdsOk_of_none (fun w => congrArg SwitchState.holds (s.clearLane_switch w))
    (fun c => (s.clearLane_caps c).2.2.2) (fun w => congrArg SwitchState.recheck (s.clearLane_switch w))

section
variable {s : State} (ok : s.holdsOk)
include ok

theorem State.reserved_holdsOk {p : PortId} {op : State → State} (h : (op s).holdsOk) : (s.reserved p op).holdsOk := by
  unfold State.reserved
  split
  · exact h
  · exact State.holdsOk_of_holdBook ok (by simp)

theorem State.reqTrackClear_holdsOk (p : PortId) : (s.reqTrackClear p).holdsOk :=
  State.reserved_holdsOk ok <| by
    split
    · exact State.holdsOk_of_holdBook ok (by simp)
    · have cleared := State.holdsOk_of_holdBook s.clearPositions.clearLane_holdsOk
        (State.foldl_holdBook _ State.clearSwitch_holdBook (List.finRange 32))
      dsimp only
      generalize (List.finRange 32).foldl State.clearSwitch s.clearPositions.clearLane = u at cleared
      exact State.holdsOk_of_holdBook cleared (by simp)

theorem State.reqLayoutEdit_holdsOk (p : PortId) : (s.reqLayoutEdit p).holdsOk :=
  State.reserved_holdsOk ok <| by
    have refused (r : Reason) : (s.refuse p r).holdsOk := State.holdsOk_of_holdBook ok (by simp)
    repeat' split
    · exact refused _
    · exact refused _
    · exact refused _
    · exact State.holdsOk_of_holdBook s.forgetPositions.clearLane_holdsOk (by simp)

/-! ## Every command -/

theorem State.carryOut_holdsOk (p : PortId) (name : RequestName) (payload : List Byte) :
    (s.carryOut p name payload).holdsOk := by
  have stays {t : State} : t.lane.holdBook = s.lane.holdBook → t.holdsOk := State.holdsOk_of_holdBook ok
  cases name with
  | reportCrossing => exact State.reqReportCrossing_holdsOk ok ..
  | trackClear => exact State.reqTrackClear_holdsOk ok ..
  | layoutEdit => exact State.reqLayoutEdit_holdsOk ok ..
  | poll | portReset => exact stays (s.modPort_portsOnly p _).holdBook
  | portStatus => exact stays ((s.modPort_portsOnly p _).trans (State.modPort_portsOnly ..)).holdBook
  | take => exact stays (s.reqTake_holdBook ..)
  | portSet => exact stays (s.reqPortSet_holdBook ..)
  | select => exact stays (s.reqSelect_holdBook ..)
  | fetch => exact stays (s.reqFetch_holdBook ..)
  | put => exact stays (s.reqPut_holdBook ..)
  | apply => exact stays (s.reqApply_holdBook ..)
  | reportHandset => exact stays (s.reqReportHandset_holdBook ..)
  | reportSwitch => exact stays (s.reqReportSwitch_holdBook ..)
  | start => exact stays (s.reqStart_holdBook ..)
  | stop => exact stays (s.reqStop_holdBook ..)
  | caution => exact stays (s.reqCaution_holdBook ..)
  | green => exact stays (s.reqGreen_holdBook ..)
  | pitOpen | pitClose => exact stays (s.reqPit_holdBook ..)
  | zoneLock => exact stays (s.reqZoneLock_holdBook ..)
  | switchDisable | switchEnable | switchClear => exact stays (s.reqSwitch_holdBook ..)
  | layoutRun => exact stays (s.reqLayoutRun_holdBook ..)
  | openPairing => exact stays (s.reqOpenPairing_holdBook ..)
  | closePairing => exact stays (s.reqClosePairing_holdBook ..)
  | release => exact stays (s.reqRelease_holdBook ..)
  | storeSave => exact stays (s.reqStoreSave_holdBook ..)

theorem State.answers.holdsOk {t : State} {p : PortId} (h : s.answers p t) : t.holdsOk := by
  obtain ports | ⟨name, payload, rfl⟩ := h
  · exact State.holdsOk_of_holdBook ok ports.holdBook
  · exact State.carryOut_holdsOk (State.holdsOk_of_holdBook (t := s.taken p) ok (by simp)) p name payload

theorem exec_requestOf_holdsOk {c : Instr} {p : PortId} {code : Byte} {payload : List Byte}
    (h : requestOf c = some (p, code, payload)) : ∃ t : State, exec c s = .next t ∧ t.holdsOk := by
  obtain ⟨t, e, a⟩ := exec_requestOf_answers h s
  exact ⟨t, e, a.holdsOk ok⟩

theorem exec_holdsOk (c : Instr) : ∃ t : State, exec c s = .next t ∧ t.holdsOk := by
  have stays {o : Host.Outcome State Fault Refusal} : s.leavesHoldBook o → ∃ t : State, o = .next t ∧ t.holdsOk :=
    fun ⟨t, e, same⟩ => ⟨t, e, State.holdsOk_of_holdBook ok same⟩
  cases c
  case hardReset rcs => exact ⟨_, rfl, State.holdsOk_of_holdBook State.reset_holdsOk rfl⟩
  case requestFrame p sdi =>
    obtain ⟨t, e, a⟩ := exec_requestFrame_answers p sdi s
    exact ⟨t, e, a.holdsOk ok⟩
  case pitExitRecheck w => exact execPitExitRecheck_holdsOk ok w
  case actuationDeadline w => exact stays (execActuationDeadline_holdBook s w)
  case holdDeadline w => exact stays (execHoldDeadline_holdBook s w)
  case restoringActuationDeadline w => exact stays (execRestoringActuationDeadline_holdBook s w)
  case stall c => exact stays (execStall_holdBook s c)
  case trackTimeTick | selnFall | offerExpiry | stweRise => exact stays (.next rfl)
  case restore => exact stays (execRestore_holdBook s)
  case restoreEnd => exact stays (.due (by simp))
  case staleExpiry h => exact stays (execStaleExpiry_holdBook s h)
  case handsetLostExpiry h => exact stays (execHandsetLostExpiry_holdBook s h)
  case intentExpiry | conflictCapEnd => exact stays (.due rfl)
  case pairingWindowExpiry => exact stays (.due (by simp))
  case lampExpiry => exact stays (execLampExpiry_holdBook s)
  case writerCommitStart => exact stays (.next s.chooseCommit_holdBook)
  case writerStepEnd => exact stays (execWriterStepEnd_holdBook s)
  case commitCompletion => exact stays (execCommitCompletion_holdBook s)
  case stweFall => exact stays (execStweFall_holdBook s)
  case railFrameStart => exact stays (.due (by simp))
  case broadcastWord | carWord | quietWindow => exact stays (.due rfl)
  all_goals exact exec_requestOf_holdsOk ok rfl

end

/-- Settles O58: every command keeps the hold lists, caps and recheck times in step, and a bit period leaves them. -/
theorem everyStepKeepsTheHolds : Obligations.EveryStepKeepsTheHolds := by
  intro s t ok h
  unfold step at h
  split at h
  · cases h
    refine State.holdsOk_of_holdBook ok ?_
    obtain ⟨_, -, -, -, -, e⟩ | ⟨-, e⟩ := s.bitPeriod_cases <;> rw [e]
  · next c rest _ =>
    obtain ⟨u, e, kept⟩ := exec_holdsOk (s := { s with pending := rest }) (State.holdsOk_of_holdBook ok rfl) c
    rw [e] at h
    cases h
    exact kept

end Sys2Proof.Machine
end

section
/-! The recheck of a PIT_EXIT, case by case (R91, R92). -/

namespace Sys2Proof.Machine

-- One after the other, the proofs need no thread each.
set_option Elab.async false

/-! ## The recheck time moved on (R91) -/

/-- A switch with its recheck time t while it holds cars, and none else. -/
def SwitchState.timed (t : Time) (st : SwitchState) : SwitchState :=
  { st with recheck := if st.holds = [] then none else some t }

theorem State.modSwitch_modSwitch (s : State) (w : SwitchId) (f g : SwitchState → SwitchState) :
    (s.modSwitch w f).modSwitch w g = s.modSwitch w (g ∘ f) :=
  State.ext_blocks
    (lane := congrArg (fun switches => { s.lane with switches := switches }) (modAt_modAt s.lane.switches w f g))

theorem State.putSwitch_modSwitch (s : State) (w : SwitchId) (x : SwitchState) (f : SwitchState → SwitchState) :
    (s.putSwitch w x).modSwitch w f = s.putSwitch w (f x) := s.modSwitch_modSwitch w (fun _ => x) f

/-- A grant writes no recheck time, so it may come before or after the move of one. -/
theorem State.grant_timed (s : State) (c : CarId) (w : SwitchId) (t : Time) :
    (s.grant c w).modSwitch w (SwitchState.timed t) = (s.modSwitch w (SwitchState.timed t)).grant c w := by
  have settled (u : State) (m : SwitchMode) (v : State → State)
      (blind : ∀ x : State, (v x).modSwitch w (SwitchState.timed t) = v (x.modSwitch w (SwitchState.timed t))) :
      (v (u.modSwitch w fun st => { st with mode := m })).modSwitch w (SwitchState.timed t) =
        v ((u.modSwitch w (SwitchState.timed t)).modSwitch w fun st => { st with mode := m }) := by
    rw [blind, State.modSwitch_modSwitch, State.modSwitch_modSwitch]
    rfl
  unfold State.grant
  simp only [State.modSwitch_fields]
  cases s.tracker.cars[c].placed with
  | none => rfl
  | some prior =>
    dsimp only
    split
    · exact settled (s.moveCar c s.geo.switches[w].targetZone s.now .switch) _
        (fun x => (x.offerTo s.geo.switches[w].owner (.throwSwitch w c)).announceDecision w c .grant) fun _ => rfl
    · exact settled (s.moveCar c s.geo.switches[w].targetZone s.now .switch) _
        (fun x => ((x.offerTo s.geo.switches[w].owner (.throwSwitch w c)).clearIntent c).announceDecision w c .grant)
        fun _ => rfl

theorem State.recheckHead_granted {s : State} {w : SwitchId} {head : Hold} (exit : s.geo.switches[w].kind = .pitExit)
    (passes : ∀ r ∈ exitOrder, ¬ s.fails head.car w r) :
    s.recheckHead w head = (s.endHold head.car w).grant head.car w := by
  unfold State.recheckHead
  rw [(s.exitDecision_none head.car w exit).2 passes]

section
variable {s : State} {w : SwitchId} {head : Hold} {rest : List Hold} {d : Time}
  (holds : (s.switch w).holds = head :: rest)
include holds

/-- A recheck that is due judges the head and moves the recheck time on by 20 ms. -/
theorem execPitExitRecheck_due (recheck : (s.switch w).recheck = some d) (due : (s.now - d).toNat < 2 ^ 31) :
    execPitExitRecheck w s = .next ((s.recheckHead w head).modSwitch w (SwitchState.timed (d + 20))) := by
  have timed : SwitchState.timed (d + 20) = fun st : SwitchState =>
      { st with recheck := if st.holds.isEmpty then none else some (addMs d 20) } := by
    funext st
    simp only [SwitchState.timed, List.isEmpty_iff]
    rfl
  unfold execPitExitRecheck
  rw [holds, recheck, timed]
  exact if_pos (reached_iff.2 due)

/-- The head leaves, and the rest stays. -/
theorem State.endHold_head (ok : s.holdsOk) : s.endHold head.car w = (s.putSwitch w { s.switch w with
    holds := rest, recheck := if rest = [] then none else (s.switch w).recheck }).putPitHold head.car none := by
  have once := ok.2.1 w
  rw [holds, List.map_cons, List.nodup_cons] at once
  have others : rest.filter (·.car ≠ head.car) = rest :=
    List.filter_eq_self.2 fun h mem => decide_eq_true fun same => once.1 (same ▸ List.mem_map_of_mem mem)
  have left : (s.switch w).holds.filter (·.car ≠ head.car) = rest := by
    rw [holds, List.filter_cons_of_neg (by simp), others]
  rw [State.endHold_eq, State.modSwitch_eq_put, SwitchState.without]
  dsimp only
  rw [left]
  rfl

theorem State.recheckHead_held (exit : s.geo.switches[w].kind = .pitExit) {r : DecisionReason}
    (first : s.firstFails head.car w exitOrder r) :
    s.recheckHead w head = if r = head.reason then s
      else (s.putSwitch w { s.switch w with holds := Hold.mk head.car r :: rest }).tellDecision w head.car
        (.hold r) := by
  unfold State.recheckHead
  rw [(s.exitDecision_some head.car w r exit).2 first]
  dsimp only
  rw [State.modSwitch_eq_put, holds]
  rfl

end

/-- Settles O40, by the first check that fails for the head. -/
theorem pitExitRecheckJudgesTheHead : Obligations.PitExitRecheckJudgesTheHead := by
  intro w head rest d s ok exit holds recheck due
  simp only
  change (_ → execPitExitRecheck w s = _) ∧ (_ → execPitExitRecheck w s = _) ∧ ∀ r, _ → _ → execPitExitRecheck w s = _
  rw [execPitExitRecheck_due holds recheck due]
  refine ⟨fun passes => ?_, fun first => ?_, fun r new first => ?_⟩
  · rw [State.recheckHead_granted exit passes, State.grant_timed, State.endHold_head holds ok]
    exact congrArg (fun u => Host.Outcome.next ((u.putPitHold head.car none).grant head.car w))
      (s.putSwitch_modSwitch w _ _)
  · rw [State.recheckHead_held holds exit first, if_pos rfl, State.modSwitch_eq_put, SwitchState.timed,
      if_neg (by simp [holds])]
  · rw [State.recheckHead_held holds exit first, if_neg new]
    exact congrArg (fun u => Host.Outcome.next (u.tellDecision w head.car (.hold r))) (s.putSwitch_modSwitch w _ _)

end Sys2Proof.Machine
end

section
/-! Switch reports, with their tests, and what they do to the switch, its claim and its caps (R85, R97 to R101, R105,
R108, R122). -/

namespace Sys2Proof.Machine

-- One after the other, the proofs need no thread each.
set_option Elab.async false

/-! ## Switches by their number (R98, R125) -/

section
variable {s : State} {number : Byte}

theorem State.definedSwitch_none
    (undefined : ∀ w : SwitchId, number = BitVec.ofNat 8 w.val → s.geo.switches[w].defined = false) :
    s.definedSwitch number = none := by
  unfold State.definedSwitch
  rw [Option.filter_eq_none_iff]
  intro w found
  have named : number = BitVec.ofNat 8 w.val := by
    rw [← finOf_eq_some.1 found, BitVec.ofNat_toNat, BitVec.setWidth_eq]
  rw [undefined w named]
  decide

theorem State.definedSwitch_some {w : SwitchId} (named : number = BitVec.ofNat 8 w.val)
    (defined : s.geo.switches[w].defined = true) : s.definedSwitch number = some w := by
  have found : finOf 32 number = some w := named ▸ finOf_idxByte (by decide) w
  unfold State.definedSwitch
  rw [found]
  exact Option.filter_eq_some_iff.2 ⟨rfl, defined⟩

end

/-! ## The tests of REPORT SWITCH, in order (R98) -/

section
variable {s : State} {p : PortId} {number kind position : Byte}

theorem State.reqReportSwitch_layout (layout : s.geo.phase = .layout) :
    s.reqReportSwitch p number kind position = s.refuse p .phase := if_pos layout

section
variable (run : s.geo.phase = .run)
include run

theorem State.reqReportSwitch_undefined
    (undefined : ∀ w : SwitchId, number = BitVec.ofNat 8 w.val → s.geo.switches[w].defined = false) :
    s.reqReportSwitch p number kind position = s.refuse p (.range 1) := by
  unfold State.reqReportSwitch
  rw [if_neg (by rw [run]; decide), State.definedSwitch_none undefined]

variable {w : SwitchId} (named : number = BitVec.ofNat 8 w.val) (defined : s.geo.switches[w].defined = true)
include named defined

/-- A defined switch's number names that switch. -/
theorem State.reqReportSwitch_defined : s.reqReportSwitch p number kind position =
    if s.switchOwner w ≠ p then s.refuse p .notOwner
    else if kind = 0 then s.takeThrown p w
    else if kind = 1 then s.takeReturned p w
    else if kind = 2 then (positionOf position).elim (s.refuse p (.range 3)) (s.takeJammed p w)
    else s.refuse p (.range 2) := by
  unfold State.reqReportSwitch
  rw [if_neg (by rw [run]; decide), State.definedSwitch_some named defined]

theorem State.reqReportSwitch_foreign (foreign : s.geo.switches[w].owner ≠ p) :
    s.reqReportSwitch p number kind position = s.refuse p .notOwner :=
  (State.reqReportSwitch_defined run named defined).trans (if_pos foreign)

end

/-- The four rows of REPORT SWITCH carry out one request. -/
theorem exec_reportSwitch (takes : s.takes p) :
    exec (.reportSwitchThrown p number position) s = .next ((s.taken p).reqReportSwitch p number 0 position) ∧
      exec (.reportSwitchReturned p number position) s = .next ((s.taken p).reqReportSwitch p number 1 position) ∧
      exec (.reportSwitchJammed p number position) s = .next ((s.taken p).reqReportSwitch p number 2 position) ∧
      exec (.reportSwitchUnknownKind p number kind position) s =
        .next ((s.taken p).reqReportSwitch p number kind position) :=
  have handed (k : Byte) :=
    congrArg Host.Outcome.next (State.request_running p (·.reqReportSwitch p number k position) takes)
  ⟨handed 0, handed 1, handed 2, handed kind⟩

/-- Past tests 1 to 3 the report kind decides. -/
theorem State.reqReportSwitch_taken {w : SwitchId} (takes : s.takesReport p w number) :
    (s.taken p).reqReportSwitch p number kind position =
      if kind = 0 then (s.taken p).takeThrown p w
      else if kind = 1 then (s.taken p).takeReturned p w
      else if kind = 2 then (positionOf position).elim (s.answer p (.refused (.range 3))) ((s.taken p).takeJammed p w)
      else s.answer p (.refused (.range 2)) := by
  obtain ⟨-, run, named, defined, owner⟩ := takes
  rw [← State.taken_refuse, ← State.taken_refuse, State.reqReportSwitch_defined (s := s.taken p) run named defined]
  exact if_neg (not_not.2 owner)

section
variable {w : SwitchId} (takes : s.takesReport p w number)
include takes

theorem exec_reportSwitchThrown_taken :
    exec (.reportSwitchThrown p number position) s = .next ((s.taken p).takeThrown p w) := by
  rw [(exec_reportSwitch (kind := 0) takes.1).1, State.reqReportSwitch_taken takes]
  rfl

theorem exec_reportSwitchReturned_taken :
    exec (.reportSwitchReturned p number position) s = .next ((s.taken p).takeReturned p w) := by
  rw [(exec_reportSwitch (kind := 0) takes.1).2.1, State.reqReportSwitch_taken takes]
  rfl

theorem exec_reportSwitchJammed_taken : exec (.reportSwitchJammed p number position) s =
    .next ((positionOf position).elim (s.answer p (.refused (.range 3))) ((s.taken p).takeJammed p w)) := by
  rw [(exec_reportSwitch (kind := 0) takes.1).2.2.1, State.reqReportSwitch_taken takes]
  rfl

end

/-! ## The reports by run state (R99, R100, R101) -/

theorem State.takeThrown_refused {w : SwitchId} (other : (s.switch w).mode.runState ≠ .pending) :
    s.takeThrown p w = s.refuse p .state := by
  unfold State.takeThrown
  split
  case h_1 mode => exact absurd (by rw [mode]; rfl) other
  all_goals rfl

theorem State.takeReturned_refused {w : SwitchId}
    (rests : (s.switch w).mode.runState ∈ [RunState.ready, .faulted, .disabled]) :
    s.takeReturned p w = s.refuse p .state := by
  unfold State.takeReturned
  split
  case h_1 mode | h_2 mode | h_3 mode => simp [mode, SwitchMode.runState] at rests
  all_goals rfl

theorem positionOf_none (outside : 2 < position.toNat) : positionOf position = none := by
  unfold positionOf
  repeat' split
  case isTrue h | isTrue h | isTrue h => subst h; simp at outside
  rfl

end

/-- Settles O42: each test in turn, on the state taken. -/
theorem switchReportsAreTestedInOrder : Obligations.SwitchReportsAreTestedInOrder := by
  intro p number kind position s takes
  refine ⟨fun cmd row => ?_, fun w passes => ⟨fun unknown => ?_, fun outside => ?_, fun other => ?_, fun rests => ?_⟩⟩
  · obtain ⟨k, e⟩ : ∃ k : Byte, exec cmd s = .next ((s.taken p).reqReportSwitch p number k position) := by
      obtain ⟨thrown, returned, jammed, unknown⟩ :=
        exec_reportSwitch (number := number) (kind := kind) (position := position) takes
      simp only [List.mem_cons, List.not_mem_nil, or_false] at row
      obtain rfl | rfl | rfl | rfl := row
      · exact ⟨_, thrown⟩
      · exact ⟨_, returned⟩
      · exact ⟨_, jammed⟩
      · exact ⟨_, unknown⟩
    simp only [e, ← State.taken_refuse]
    exact ⟨fun layout => congrArg _ (State.reqReportSwitch_layout layout),
      fun run undefined => congrArg _ (State.reqReportSwitch_undefined run undefined),
      fun w run named defined foreign => congrArg _ (State.reqReportSwitch_foreign run named defined foreign)⟩
  · have named (k : Byte) (known : k.toNat ≤ 2) : kind ≠ k := by rintro rfl; omega
    rw [(exec_reportSwitch takes).2.2.2, State.reqReportSwitch_taken passes, if_neg (named 0 (by decide)),
      if_neg (named 1 (by decide)), if_neg (named 2 (by decide))]
  · rw [exec_reportSwitchJammed_taken passes, positionOf_none outside]
    rfl
  · rw [exec_reportSwitchThrown_taken passes, State.takeThrown_refused (s := s.taken p) other, State.taken_refuse]
  · rw [exec_reportSwitchReturned_taken passes, State.takeReturned_refused (s := s.taken p) rests, State.taken_refuse]

end Sys2Proof.Machine
end

section
/-! A switch that leaves its passage: by a report, by a deadline, by a fault, and by a Race Control request (R97, R99 to
R105, R109, R122). -/

namespace Sys2Proof.Machine

-- One after the other, the proofs need no thread each.
set_option Elab.async false

/-! ## Taking a request commutes with the closing of a claim -/

section
variable (s : State) (p : PortId) (w : SwitchId) (cl : Claim)

theorem State.taken_restSwitch (m : SwitchMode) (ps : Position) :
    (s.taken p).restSwitch w m ps = (s.restSwitch w m ps).taken p := rfl

theorem State.taken_undoGrant : (s.taken p).undoGrant w cl = (s.undoGrant w cl).taken p := by
  by_cases shown : ∃ pl : Placed, s.tracker.cars[cl.car].placed = some pl ∧
      pl.zone = s.geo.switches[w].targetZone ∧ pl.way = .switch ∧ pl.entryStamp = cl.grantStamp
  · obtain ⟨pl, placed, zone, way, stamp⟩ := shown
    rw [State.undoGrant_shown placed zone way stamp, State.undoGrant_shown (s := s.taken p) placed zone way stamp]
    rfl
  · rw [State.undoGrant_notShown shown, State.undoGrant_notShown (s := s.taken p) shown]

theorem State.taken_closePending (m : SwitchMode) (ps : Position) (o : FinalOutcome) :
    (s.taken p).closePending w cl m ps o = (s.closePending w cl m ps o).taken p := by
  unfold State.closePending
  rw [State.taken_restSwitch, State.taken_undoGrant, State.taken_announceClosed]

end

/-! ## What a fault says of the position (R101, R102, R105) -/

section
variable {s : State} {w : SwitchId} {cause : FaultCause} {left : RunState} {cl : Claim} {m : SwitchMode} {ps : Position}

theorem State.announceFault_eq_tellFault (rests : (s.switch w).position = ps) :
    s.announceFault w cause left = s.tellFault w cause left ps := by
  subst rests
  rfl

theorem State.restSwitch_announceFault :
    (s.restSwitch w m ps).announceFault w cause left = (s.restSwitch w m ps).tellFault w cause left ps :=
  State.announceFault_eq_tellFault (by rw [State.restSwitch_switch, if_pos rfl])

theorem State.closeSet_announceFault :
    (s.closeSet w cl m ps).announceFault w cause left =
      ((s.restSwitch w m ps).tellClosed w cl (.recorded cl.outcome)).tellFault w cause left ps :=
  State.announceFault_eq_tellFault (by rw [State.closeSet_switch, if_pos rfl])

theorem State.closePending_switch (k : SwitchId) (o : FinalOutcome) :
    (s.closePending w cl m ps o).switch k = (s.restSwitch w m ps).switch k := State.switch_eq (by simp) k

theorem State.closePending_announceFault {o : FinalOutcome} :
    (s.closePending w cl m ps o).announceFault w cause left =
      (((s.restSwitch w m ps).undoGrant w cl).tellClosed w cl o).tellFault w cause left ps :=
  State.announceFault_eq_tellFault (by rw [State.closePending_switch, State.restSwitch_switch, if_pos rfl])

theorem State.faultReport_raises (armed : s.course.settings.autoCaution = true) (green : s.course.course = .green) :
    s.faultReport w = (s.putCourse .caution s.course.lampCount s.course.nextLamp).offerAll
      (.course .caution .green s.course.lampCount (.auto w)) := by
  obtain ⟨-, -, raised⟩ | ⟨idle, -⟩ := s.faultReport_cases w
  · rw [raised, ← green]
    rfl
  · exact absurd ⟨armed, green⟩ idle

theorem State.faultReport_idle (idle : s.course.settings.autoCaution = false ∨ s.course.course ≠ .green) :
    s.faultReport w = s := by
  obtain ⟨armed, green, -⟩ | ⟨-, same⟩ := s.faultReport_cases w
  · simp [armed, green] at idle
  · exact same

end

/-! ## THROWN and RETURNED (R99, R100) -/

section
variable {s : State} {p : PortId} {w : SwitchId} {d : Time} {cl : Claim}

theorem State.setSwitch_eq_put (m : SwitchMode) (ps : Position) :
    s.setSwitch w m ps = s.putSwitch w { s.switch w with mode := m, position := ps } := s.modSwitch_eq_put w _

theorem State.takeThrown_pending (mode : (s.switch w).mode = .pending d cl) :
    s.takeThrown p w = (s.putSwitch w { s.switch w with
      mode := .set (s.now + s.geo.switches[w].holdLimit.setWidth 32) cl, position := .thrown }).done p [] := by
  unfold State.takeThrown
  rw [mode, ← State.setSwitch_eq_put, ← addMs_toNat]

theorem State.takeReturned_pending (mode : (s.switch w).mode = .pending d cl) :
    s.takeReturned p w = (s.closePending w cl .ready .normal .aborted).done p [] := by
  unfold State.takeReturned
  rw [mode]

theorem State.takeReturned_set (mode : (s.switch w).mode = .set d cl) :
    s.takeReturned p w = (s.closeSet w cl .ready .normal).done p [] := by
  unfold State.takeReturned
  rw [mode]

theorem State.takeReturned_restoring (mode : (s.switch w).mode = .restoring d) :
    s.takeReturned p w = (s.restSwitch w .ready .normal).done p [] := by
  unfold State.takeReturned
  rw [mode]

end

/-- Settles O43: the report is carried out on the state taken, and taking commutes with each part of it. -/
theorem thrownAndReturnedMoveTheSwitch : Obligations.ThrownAndReturnedMoveTheSwitch := by
  intro p number position w s takes
  refine ⟨fun c => mapAll_get s.lane.busyCaps _ c, rfl, fun d cl mode => ⟨?_, ?_⟩, fun d cl mode => ?_,
    fun d mode => ?_⟩
  · rw [exec_reportSwitchThrown_taken takes, State.takeThrown_pending (s := s.taken p) mode]
    exact congrArg Host.Outcome.next (State.taken_done (s.putSwitch w _) p [])
  · rw [exec_reportSwitchReturned_taken takes, State.takeReturned_pending (s := s.taken p) mode,
      State.taken_closePending, State.taken_done]
    rfl
  · rw [exec_reportSwitchReturned_taken takes, State.takeReturned_set (s := s.taken p) mode, State.taken_closeSet,
      State.taken_done]
    rfl
  · rw [exec_reportSwitchReturned_taken takes, State.takeReturned_restoring (s := s.taken p) mode,
      State.taken_restSwitch, State.taken_done]

/-! ## JAMMED (R101) -/

section
variable {s : State} {p : PortId} {w : SwitchId} {ps : Position} {d : Time} {cl : Claim}

theorem State.takeJammed_pending (mode : (s.switch w).mode = .pending d cl) :
    s.takeJammed p w ps =
      ((s.closePending w cl .faulted ps .aborted).announceFault w .jammed (s.switch w).mode.runState).done p [] := by
  unfold State.takeJammed
  rw [mode]

theorem State.takeJammed_set (mode : (s.switch w).mode = .set d cl) :
    s.takeJammed p w ps =
      ((s.closeSet w cl .faulted ps).announceFault w .jammed (s.switch w).mode.runState).done p [] := by
  unfold State.takeJammed
  rw [mode]

theorem State.takeJammed_unclaimed (free : (s.switch w).mode.claim = none) :
    s.takeJammed p w ps =
      ((s.restSwitch w .faulted ps).announceFault w .jammed (s.switch w).mode.runState).done p [] := by
  unfold State.takeJammed
  cases mode : (s.switch w).mode with
  | pending | set => simp [mode, SwitchMode.claim] at free
  | ready | restoring | faulted | disabled => rfl

theorem positionOf_named {position : Byte}
    (names : position = 0 ∧ ps = .normal ∨ position = 1 ∧ ps = .thrown ∨ position = 2 ∧ ps = .unknown) :
    positionOf position = some ps := by
  obtain ⟨rfl, rfl⟩ | ⟨rfl, rfl⟩ | ⟨rfl, rfl⟩ := names <;> rfl

end

/-- Settles O44: the report is carried out on the state taken, and the alert carries the position the switch
then has. -/
theorem jammedFaultsTheSwitch : Obligations.JammedFaultsTheSwitch := by
  intro p number position ps w s takes names
  have jammed : exec (.reportSwitchJammed p number position) s = .next ((s.taken p).takeJammed p w ps) := by
    rw [exec_reportSwitchJammed_taken takes, positionOf_named names]
    rfl
  simp only [jammed]
  refine ⟨fun d cl mode => ?_, fun d cl mode => ?_, fun free => ?_, State.faultReport_raises, State.faultReport_idle⟩
  · rw [State.takeJammed_pending (s := s.taken p) mode, State.taken_closePending, State.taken_announceFault,
      State.taken_done, State.closePending_announceFault]
    rfl
  · rw [State.takeJammed_set (s := s.taken p) mode, State.taken_closeSet, State.taken_announceFault, State.taken_done,
      State.closeSet_announceFault]
    rfl
  · rw [State.takeJammed_unclaimed (s := s.taken p) free, State.taken_restSwitch, State.taken_announceFault,
      State.taken_done, State.restSwitch_announceFault]
    rfl

/-! ## The deadlines (R102, R103, R104) -/

section
variable {s : State} {w : SwitchId} {d : Time} {cl : Claim} (due : reached s.now d = true)
include due

theorem execActuationDeadline_due (mode : (s.switch w).mode = .pending d cl) : execActuationDeadline w s =
    .next ((s.closePending w cl .faulted .unknown .lapsed).announceFault w .actuation .pending) := by
  unfold execActuationDeadline
  rw [mode]
  exact if_pos due

theorem execHoldDeadline_due (mode : (s.switch w).mode = .set d cl) :
    execHoldDeadline w s = .next (s.restoreSwitch w cl) := by
  unfold execHoldDeadline
  rw [mode]
  exact if_pos due

theorem execRestoringActuationDeadline_due (mode : (s.switch w).mode = .restoring d) :
    execRestoringActuationDeadline w s =
      .next ((s.restSwitch w .faulted .thrown).announceFault w .actuation .restoring) := by
  unfold execRestoringActuationDeadline
  rw [mode]
  exact if_pos due

end

/-- Settles O45: what each deadline event does once it is due, by the run state. -/
theorem switchDeadlinesEndThePassage : Obligations.SwitchDeadlinesEndThePassage := by
  intro w d cl s due
  have due := reached_iff.2 due
  refine ⟨fun mode => ?_, fun mode room => ?_, fun mode full => ?_, fun mode => ?_⟩
  · change execActuationDeadline w s = _
    rw [execActuationDeadline_due due mode, State.closePending_announceFault]
  · change execHoldDeadline w s = _
    rw [execHoldDeadline_due due mode, State.restoreSwitch_queued cl room, addMs_toNat, State.setSwitch_eq_put]
    rfl
  · change execHoldDeadline w s = _
    rw [execHoldDeadline_due due mode, State.restoreSwitch_full cl full, State.closeSet_announceFault, mode]
    rfl
  · change execRestoringActuationDeadline w s = _
    rw [execRestoringActuationDeadline_due due mode, State.restSwitch_announceFault]

/-! ## SWITCH DISABLE, ENABLE and CLEAR (R109) -/

/-- The run state a request on a switch takes. -/
def SwitchRequest.takenIn : SwitchRequest → RunState
  | .disable => .ready
  | .enable => .disabled
  | .clear => .faulted

/-- The mode a request on a switch leads to. -/
def SwitchRequest.leadsTo : SwitchRequest → SwitchMode
  | .disable => .disabled
  | .enable | .clear => .ready

/-- Table 5-7: a request has an effect in one run state, and CLEAR alone moves the switch. -/
theorem switchRequestEffect_eq (r : SwitchRequest) (st : SwitchState) : switchRequestEffect r st =
    if st.mode.runState = r.takenIn then some (r.leadsTo, if r = .clear then .normal else st.position) else none := by
  unfold switchRequestEffect
  cases r <;> cases st.mode <;> rfl

section
variable {s : State} {p : PortId} {number : Byte} (takes : s.takes p) (rights : (s.ports[p]).raceControl = true)
  (r : SwitchRequest)
include takes rights

theorem State.reqSwitch_undefined
    (undefined : ∀ w : SwitchId, number = BitVec.ofNat 8 w.val → s.geo.switches[w].defined = false) :
    s.request p (·.reqSwitch p r number) = s.answer p (.refused (.range 1)) := by
  refine (State.request_reserved _ takes rights).trans ?_
  rw [State.definedSwitch_none (s := s.taken p) undefined, ← State.taken_refuse]

section
variable {w : SwitchId} (named : number = BitVec.ofNat 8 w.val) (defined : s.geo.switches[w].defined = true)
include named defined

theorem State.reqSwitch_refused (other : (s.switch w).mode.runState ≠ r.takenIn) :
    s.request p (·.reqSwitch p r number) = s.answer p (.refused .state) := by
  refine (State.request_reserved _ takes rights).trans ?_
  simp only [State.definedSwitch_some (s := s.taken p) named defined, State.taken_switch, switchRequestEffect_eq,
    if_neg other, State.taken_refuse]

theorem State.reqSwitch_moves {ps : Position} (rest : ps = if r = .clear then .normal else (s.switch w).position)
    (admits : (s.switch w).mode.runState = r.takenIn) : s.request p (·.reqSwitch p r number) =
      ((s.restSwitch w r.leadsTo ps).offerWithRaceControl s.geo.switches[w].owner
        (.switchState w r r.leadsTo.runState ps)).answer p (.done [r.leadsTo.runState.byte, ps.byte]) := by
  refine (State.request_reserved _ takes rights).trans ?_
  simp only [State.definedSwitch_some (s := s.taken p) named defined, State.taken_switch, switchRequestEffect_eq,
    if_pos admits, ← rest, State.taken_restSwitch, State.taken_offerWithRaceControl, State.taken_done]
  rfl

end

end

/-- Settles O46: each row is one request of Table 5-7, carried out on the state taken. -/
theorem switchRequestsMoveTheRunState : Obligations.SwitchRequestsMoveTheRunState := by
  intro p number s takes rights row listed
  obtain ⟨r, handed, isRow⟩ : ∃ r : SwitchRequest, exec row.1 s = .next (s.request p (·.reqSwitch p r number)) ∧
      row.2 = (r, r.takenIn, r.leadsTo, r.leadsTo.runState.byte) := by
    simp only [List.mem_cons, List.not_mem_nil, or_false] at listed
    obtain rfl | rfl | rfl := listed
    exacts [⟨.disable, rfl, rfl⟩, ⟨.enable, rfl, rfl⟩, ⟨.clear, rfl, rfl⟩]
  rw [handed, isRow]
  exact ⟨fun undefined => congrArg _ (State.reqSwitch_undefined takes rights r undefined), fun w named defined =>
    ⟨fun other => congrArg _ (State.reqSwitch_refused takes rights r named defined other),
      fun admits => congrArg _ (State.reqSwitch_moves takes rights r named defined rfl admits)⟩⟩

end Sys2Proof.Machine
end

section
/-! The course, its lamps, the pit flag and the zone locks as race control's requests and the lamp times move them (R115 to
R119, R123, R124). -/

namespace Sys2Proof.Machine

-- One after the other, the proofs need no thread each.
set_option Elab.async false

section
variable {p : PortId} {s : State}

/-- A request that may leave the state as it was is answered the same way in both cases. -/
theorem State.taken_ite_done (c : Prop) [Decidable c] (t u : State) (l : List Byte) :
    (if c then t.taken p else u.taken p).done p l = (if c then t else u).answer p (.done l) := by
  rw [← State.taken_ite, State.taken_done]

/-! ## The course by request (R116, R118, Table 6-3) -/

section
variable (takes : s.takes p) (rights : (s.ports[p]).raceControl = true)
include takes rights

/-- START of race control. -/
theorem exec_start : exec (.start p) s = .next (
    if s.geo.phase = .layout then s.answer p (.refused .phase)
    else if s.course.course ≠ .stop then s.answer p (.refused .state)
    else (s.changeCourse .countdown 5 (some (s.now + 1000)) (.request p)).answer p (.done [])) := by
  change Host.Outcome.next (s.request p (·.reqStart p)) = _
  unfold State.reqStart
  rw [State.request_reserved _ takes rights, ← State.taken_refuse, ← State.taken_refuse, ← State.taken_done,
    ← State.taken_changeCourse]
  rfl

/-- STOP of race control. -/
theorem exec_stop : exec (.stop p) s =
    .next ((if s.course.course = .stop then s else s.toStop (.request p)).answer p (.done [])) := by
  change Host.Outcome.next (s.request p (·.reqStop p)) = _
  unfold State.reqStop State.toStop
  rw [State.request_reserved _ takes rights, State.taken_changeCourse]
  exact congrArg Host.Outcome.next (State.taken_ite_done ..)

/-- CAUTION of race control, by the row CAUTION of Table 6-3. -/
theorem exec_caution : exec (.caution p) s = .next (
    if s.course.course = .green then (s.toCaution (.request p)).answer p (.done [])
    else if s.course.course = .caution then s.answer p (.done [])
    else s.answer p (.refused .state)) := by
  change Host.Outcome.next (s.request p (·.reqCaution p)) = _
  unfold State.reqCaution State.toCaution
  rw [State.request_reserved _ takes rights]
  cases course : s.course.course <;> simp [course, State.taken_changeCourse]

/-- GREEN of race control, by the row GREEN of Table 6-3. -/
theorem exec_green : exec (.green p) s = .next (
    if s.course.course = .caution then
      (s.changeCourse .green s.course.lampCount s.course.nextLamp (.request p)).answer p (.done [])
    else if s.course.course = .green then s.answer p (.done [])
    else s.answer p (.refused .state)) := by
  change Host.Outcome.next (s.request p (·.reqGreen p)) = _
  unfold State.reqGreen
  rw [State.request_reserved _ takes rights]
  cases course : s.course.course <;> simp [course, State.taken_changeCourse]

end

/-! ## The lamp steps (R117) -/

/-- The lamp time of a COUNTDOWN has come. -/
theorem execLampExpiry_due {d : Time} (countdown : s.course.course = .countdown) (lit : s.course.nextLamp = some d)
    (due : (s.now - d).toNat < 2 ^ 31) : execLampExpiry s = .next (
      if s.course.lampCount ≤ 1 then s.changeCourse .green 0 none .countdownEnd
      else s.putCourse .countdown (s.course.lampCount - 1) (some (d + 1000))) := by
  unfold execLampExpiry State.putCourse
  rw [countdown, lit]
  simp only
  rw [if_pos (reached_iff.2 due), ← countdown]
  split <;> rfl

end

/-- Settles O47: START, STOP, CAUTION and GREEN by what each does on the state taken, and the lamp step that is due. -/
theorem courseMovesByTheTables : Obligations.CourseMovesByTheTables := by
  intro p s
  refine ⟨fun takes rights => ?_, fun d countdown lit due => ?_⟩
  · rw [exec_start takes rights, exec_stop takes rights, exec_caution takes rights, exec_green takes rights]
    refine ⟨fun layout => ?_, fun run out => ?_, fun run stop => ?_, fun stop => ?_, fun out => ?_, fun held => ?_,
      fun green => ?_, fun caution => ?_⟩
    · rw [if_pos layout]
    · rw [if_neg (by simp [run]), if_pos out]
    · rw [if_neg (by simp [run]), if_neg (not_not.2 stop)]
      rfl
    · rw [if_pos stop]
    · rw [if_neg out]
      rfl
    · obtain e | e := held <;> simp [e]
    · rw [if_pos green, if_neg (by simp [green]), if_pos green]
      exact ⟨rfl, rfl⟩
    · rw [if_neg (by simp [caution]), if_pos caution, if_pos caution]
      exact ⟨rfl, rfl⟩
  · change (_ → execLampExpiry s = _) ∧ (_ → execLampExpiry s = _)
    rw [execLampExpiry_due countdown lit due]
    refine ⟨fun more => ?_, fun last => ?_⟩
    · rw [if_neg (by omega)]
    · rw [if_pos last.le, ← countdown]
      rfl

/-! ## The pit flag and the zone locks (R123, R124) -/

/-- The pit flag is put. -/
def State.putPit (s : State) (opened : Bool) : State := { s with course := { s.course with pitOpen := opened } }

/-- The lock of a zone is put. -/
def State.putLock (s : State) (z : ZoneId) (locked : Bool) : State :=
  { s with course := { s.course with locks := modAt s.course.locks z fun _ => locked } }

/-- The places of ZONE LOCK whose value is out of range: a zone above 63, a lock byte above 1. -/
def zoneLockPlaces (zone lock : Byte) : List Byte :=
  (if 63 < zone.toNat then [1] else []) ++ if 1 < lock.toNat then [2] else []

theorem mem_zoneLockPlaces {zone lock k : Byte} :
    k ∈ zoneLockPlaces zone lock ↔ k = 1 ∧ 63 < zone.toNat ∨ k = 2 ∧ 1 < lock.toNat := by
  unfold zoneLockPlaces
  rw [List.mem_append, List.mem_ite_nil_right, List.mem_ite_nil_right, List.mem_singleton, List.mem_singleton]
  exact or_congr and_comm and_comm

theorem zoneLockPlaces_ne_nil {zone lock : Byte} (outside : 63 < zone.toNat ∨ 1 < lock.toNat) :
    zoneLockPlaces zone lock ≠ [] := by
  obtain z | l := outside
  · exact List.ne_nil_of_mem (mem_zoneLockPlaces.2 (.inl ⟨rfl, z⟩))
  · exact List.ne_nil_of_mem (mem_zoneLockPlaces.2 (.inr ⟨rfl, l⟩))

section
variable {p : PortId} {s : State} (takes : s.takes p) (rights : (s.ports[p]).raceControl = true)
include takes rights

/-- PIT OPEN and PIT CLOSE of race control. -/
theorem State.reqPit_taken (opened : Bool) : s.request p (·.reqPit p opened) =
    (if s.course.pitOpen = opened then s else (s.putPit opened).offerAll (.pit opened)).answer p (.done []) := by
  have told : ((s.taken p).putPit opened).offerAll (.pit opened) = ((s.putPit opened).offerAll (.pit opened)).taken p :=
    (s.putPit opened).taken_offerAll p _
  unfold State.reqPit
  rw [State.request_reserved _ takes rights, ← State.taken_ite_done, ← told]
  rfl

/-- ZONE LOCK of race control, both values in range. -/
theorem exec_zoneLock {zone lock : Byte} {z : ZoneId} (named : finOf 64 zone = some z) (inRange : lock.toNat ≤ 1) :
    exec (.zoneLock p zone lock) s = .next ((if s.course.locks[z] = (lock == 1) then s
      else (s.putLock z (lock == 1)).offerRaceControl (.zoneLock z (lock == 1))).answer p (.done [])) := by
  have told := (s.putLock z (lock == 1)).taken_offerRaceControl p (.zoneLock z (lock == 1))
  change Host.Outcome.next (s.request p (·.reqZoneLock p zone lock)) = _
  unfold State.reqZoneLock
  rw [State.request_reserved _ takes rights, named, ← State.taken_ite_done, ← told]
  exact congrArg Host.Outcome.next (if_neg (Nat.not_lt.2 inRange))

/-- ZONE LOCK of race control with a value out of range. -/
theorem exec_zoneLock_outside {zone lock : Byte} (outside : 63 < zone.toNat ∨ 1 < lock.toNat) :
    exec (.zoneLock p zone lock) s = .next ((s.taken p).refuseRange p (zoneLockPlaces zone lock)) := by
  change Host.Outcome.next (s.request p (·.reqZoneLock p zone lock)) = _
  unfold State.reqZoneLock zoneLockPlaces
  rw [State.request_reserved _ takes rights]
  cases named : finOf 64 zone with
  | some z =>
    have within : ¬ 63 < zone.toNat := by
      have := finOf_eq_some.1 named
      omega
    have bad := outside.resolve_left within
    simp [within, bad]
  | none =>
    have beyond : 63 < zone.toNat := finOf_eq_none.1 named
    by_cases bad : 1 < lock.toNat <;> simp [beyond, bad]

end

/-- A RANGE refusal of a taken request names one of the offending places (R154, log 10). -/
theorem State.taken_refuseRange {s : State} {p : PortId} {places : List Byte} (offends : places ≠ []) :
    ∃ (k : Byte) (free : Nat), k ∈ places ∧
      (s.taken p).refuseRange p places = ({ s with freeCount := free }).answer p (.refused (.range k)) := by
  obtain ⟨k, free, named, e⟩ := (s.taken p).refuseRange_spec p places offends
  exact ⟨k, free, named, e.trans (({ s with freeCount := free } : State).taken_refuse p _)⟩

/-- Settles O48: PIT OPEN and PIT CLOSE as one request, and ZONE LOCK by whether both its values are in range. -/
theorem pitAndZoneLocksAreSet : Obligations.PitAndZoneLocksAreSet := by
  intro p zone lock s takes rights
  refine ⟨fun row listed => ?_, ?_, fun outside => ?_⟩
  · have handed : exec row.1 s = .next (s.request p (·.reqPit p row.2)) := by
      simp only [List.mem_cons, List.not_mem_nil, or_false] at listed
      obtain rfl | rfl := listed <;> rfl
    rw [handed, State.reqPit_taken takes rights]
    exact ⟨fun same => by rw [if_pos same], fun moves => by rw [if_neg moves]; rfl⟩
  · rintro z rfl valid
    have named : finOf 64 (BitVec.ofNat 8 z.val) = some z := finOf_idxByte (by decide) z
    rw [exec_zoneLock takes rights named valid]
    exact ⟨fun same => by rw [if_pos same], fun moves => by rw [if_neg moves]; rfl⟩
  · obtain ⟨k, free, offending, e⟩ := State.taken_refuseRange (s := s) (p := p) (zoneLockPlaces_ne_nil outside)
    exact ⟨k, free, mem_zoneLockPlaces.1 offending,
      (exec_zoneLock_outside takes rights outside).trans (congrArg Host.Outcome.next e)⟩

end Sys2Proof.Machine
end

section
/-! What every command but a hard reset keeps of each port: its race-control rights (R114), and the bounds that the links
leave it in (R152, R161, R162, 9.5). The commands change a port by offered notices, by replies, and by the requests that
are about the port itself. -/

namespace Sys2Proof.Machine

-- One after the other, the proofs need no thread each.
set_option Elab.async false

/-! ## One port -/

/-- A port that moves from a to b keeps its rights, and keeps its bounds if it meets them. -/
structure Port.Keeps (a b : Port) : Prop where
  rights : b.raceControl = a.raceControl
  wf : a.wf → b.wf

theorem Port.Keeps.refl (a : Port) : a.Keeps a := ⟨rfl, id⟩

theorem Port.Keeps.trans {a b c : Port} (h : a.Keeps b) (g : b.Keeps c) : a.Keeps c :=
  ⟨g.rights.trans h.rights, g.wf ∘ h.wf⟩

theorem Port.offer_keeps (pt : Port) (n : Notice) : pt.Keeps (pt.offer n) := ⟨by simp, Port.offer_wf n⟩

/-- A transaction that is not discarded ends. -/
theorem Port.ended_keeps {pt : Port} (kept : pt.discarded = false) :
    pt.Keeps { pt with selLow := false, shiftFrame := [] } := by
  refine ⟨rfl, fun ⟨queue, attention, shed, sheds, losses, errors, _⟩ => ?_⟩
  exact ⟨queue, attention, shed, sheds, losses, errors, fun discarded => absurd discarded (by simp [kept])⟩

/-- A discarded transaction ends. -/
theorem Port.discardEnded_keeps (pt : Port) :
    pt.Keeps { pt with selLow := false, discarded := false, shiftFrame := [] } := by
  refine ⟨rfl, fun ⟨queue, attention, shed, sheds, losses, errors, _⟩ => ?_⟩
  exact ⟨queue, attention, shed, sheds, losses, errors, nofun⟩

/-- SELn falls. -/
theorem Port.selnFall_keeps (pt : Port) (frame : List Byte) :
    pt.Keeps { pt with selLow := true, discarded := false, shiftFrame := frame } := by
  refine ⟨rfl, fun ⟨queue, attention, shed, sheds, losses, errors, _⟩ => ?_⟩
  exact ⟨queue, attention, shed, sheds, losses, errors, nofun⟩

/-- A link error is counted. -/
theorem Port.counted_keeps (pt : Port) (n : Nat) : pt.Keeps { pt with linkErrors := min (n + 1) 255 } := by
  refine ⟨rfl, fun ⟨queue, attention, shed, sheds, losses, _, discard⟩ => ?_⟩
  exact ⟨queue, attention, shed, sheds, losses, Nat.min_le_right .., discard⟩

/-- The head notice is taken. -/
theorem Port.taken_keeps {pt : Port} {n : Notice} {rest : List Notice} (head : pt.queue = n :: rest) :
    pt.Keeps { pt with queue := rest } := by
  refine ⟨rfl, fun ⟨queue, bounds⟩ => ⟨?_, bounds⟩⟩
  rw [head] at queue
  exact (Nat.le_succ _).trans queue

/-- The counts are cleared. -/
theorem Port.cleared_keeps (pt : Port) : pt.Keeps { pt with shedCount := 0, lostCount := 0, linkErrors := 0 } := by
  refine ⟨rfl, fun ⟨queue, attention, shed, _, _, _, discard⟩ => ?_⟩
  exact ⟨queue, attention, shed, Nat.zero_le _, Nat.zero_le _, Nat.zero_le _, discard⟩

/-- Levels within their range are set. -/
theorem Port.levelled_keeps (pt : Port) {attention shed : Nat} (ha : 1 ≤ attention ∧ attention ≤ 32)
    (hs : 1 ≤ shed ∧ shed ≤ 32) : pt.Keeps { pt with attentionLevel := attention, shedLevel := shed } := by
  refine ⟨rfl, fun ⟨queue, _, _, counts⟩ => ?_⟩
  exact ⟨queue, ha, hs, counts⟩

theorem Port.portReset_keeps (pt : Port) : pt.Keeps pt.portReset := by
  refine ⟨rfl, fun ⟨_, attention, shed, _, _, _, discard⟩ => ?_⟩
  exact ⟨Nat.zero_le _, attention, shed, Nat.zero_le _, Nat.zero_le _, Nat.zero_le _, discard⟩

/-! ## The ports of a state -/

/-- Every port keeps its rights and its bounds from s to t. -/
structure State.KeepsPorts (s t : State) : Prop where
  port : ∀ q : PortId, (s.ports[q]).Keeps (t.ports[q])

/-- Such a move keeps the invariant of the ports. -/
theorem State.KeepsPorts.portsWf {s t : State} (h : s.KeepsPorts t) (ok : s.portsWf) : t.portsWf :=
  fun q => (h.port q).wf (ok q)

theorem State.KeepsPorts.refl (s : State) : s.KeepsPorts s := ⟨fun _ => .refl _⟩

theorem State.KeepsPorts.trans {s t u : State} (h : s.KeepsPorts t) (g : t.KeepsPorts u) : s.KeepsPorts u :=
  ⟨fun q => (h.port q).trans (g.port q)⟩

theorem State.KeepsPorts.foldl {α : Type} {f : State → α → State} (h : ∀ (u : State) (a : α), u.KeepsPorts (f u a))
    (s : State) (l : List α) : s.KeepsPorts (l.foldl f s) := by
  induction l generalizing s with
  | nil => exact .refl s
  | cons a as ih => exact (h s a).trans (ih (f s a))

/-- A move that leaves the ports. -/
theorem State.KeepsPorts.of_ports {s t : State} (ports : t.ports = s.ports := by simp) : s.KeepsPorts t :=
  ⟨fun q => by rw [ports]; exact .refl _⟩

section
variable {s t : State} (h : s.KeepsPorts t)
include h

theorem State.KeepsPorts.modPort {p : PortId} {f : Port → Port} (k : (t.ports[p]).Keeps (f t.ports[p])) :
    s.KeepsPorts (t.modPort p f) := by
  refine ⟨fun q => ?_⟩
  rw [State.modPort_ports]
  split
  · next own =>
    subst own
    exact (h.port q).trans k
  · exact h.port q

theorem State.KeepsPorts.reply (p : PortId) (r : Reply) : s.KeepsPorts (t.reply p r) := h.modPort ⟨rfl, id⟩

theorem State.KeepsPorts.done (p : PortId) (l : List Byte) : s.KeepsPorts (t.done p l) := h.reply p _

theorem State.KeepsPorts.refuse (p : PortId) (r : Reason) : s.KeepsPorts (t.refuse p r) := h.reply p _

theorem State.KeepsPorts.setStaging (p : PortId) (x : Option Staging) : s.KeepsPorts (t.setStaging p x) :=
  h.modPort ⟨rfl, id⟩

theorem State.KeepsPorts.setCheckError (p : PortId) (flag : Bool) : s.KeepsPorts (t.setCheckError p flag) :=
  h.modPort ⟨rfl, id⟩

theorem State.KeepsPorts.offerWhere (dest : PortId → Bool) (body : NoticeBody) : s.KeepsPorts (t.offerWhere dest body) := by
  refine ⟨fun q => ?_⟩
  rw [State.offerWhere_ports]
  split
  · exact (h.port q).trans (Port.offer_keeps ..)
  · exact h.port q

theorem State.KeepsPorts.offerTo (p : PortId) (body : NoticeBody) : s.KeepsPorts (t.offerTo p body) := h.offerWhere ..

theorem State.KeepsPorts.offerAll (body : NoticeBody) : s.KeepsPorts (t.offerAll body) := h.offerWhere ..

theorem State.KeepsPorts.offerRaceControl (body : NoticeBody) : s.KeepsPorts (t.offerRaceControl body) := h.offerWhere ..

theorem State.KeepsPorts.offerWithRaceControl (p : PortId) (body : NoticeBody) :
    s.KeepsPorts (t.offerWithRaceControl p body) := h.offerWhere ..

theorem State.KeepsPorts.clearIntent (c : CarId) : s.KeepsPorts (t.clearIntent c) := h.trans .of_ports

theorem State.KeepsPorts.setSwitch (w : SwitchId) (mode : SwitchMode) (ps : Position) :
    s.KeepsPorts (t.setSwitch w mode ps) := h.trans .of_ports

theorem State.KeepsPorts.modSwitch (w : SwitchId) (f : SwitchState → SwitchState) : s.KeepsPorts (t.modSwitch w f) :=
  h.trans .of_ports

theorem State.KeepsPorts.freeIfForsaken (k : HandsetId) : s.KeepsPorts (t.freeIfForsaken k) := h.trans .of_ports

theorem State.KeepsPorts.modOffers (f : List Offer → List Offer) : s.KeepsPorts (t.modOffers f) := h.trans .of_ports

theorem State.KeepsPorts.countFree (n : Nat) : s.KeepsPorts { t with freeCount := n } := h.trans (.of_ports rfl)

theorem State.KeepsPorts.refuseRange (p : PortId) (places : List Byte) : s.KeepsPorts (t.refuseRange p places) := by
  unfold State.refuseRange
  split
  · exact h.refuse ..
  · exact State.KeepsPorts.refuse (h.countFree _) ..

theorem State.KeepsPorts.countLinkError (p : PortId) : s.KeepsPorts (t.countLinkError p) := by
  have counted : s.KeepsPorts (t.modPort p fun pt => { pt with linkErrors := min (t.ports[p].linkErrors + 1) 255 }) :=
    h.modPort (Port.counted_keeps ..)
  rw [State.countLinkError_cases]
  split
  · exact counted.offerRaceControl _
  · exact counted

theorem State.KeepsPorts.frameError (p : PortId) : s.KeepsPorts (t.frameError p) := (h.countLinkError p).reply ..

end

/-! ## Transactions (R114, R152, R153) -/

section
variable {s : State} {p : PortId} {op : State → State}

/-- A reserved request is refused or carried out. -/
theorem State.reserved_keepsPorts (h : s.KeepsPorts (op s)) : s.KeepsPorts (s.reserved p op) := by
  unfold State.reserved
  split
  · exact h
  · exact .refuse (.refl s) ..

section
variable (h : ∀ u : State, u.KeepsPorts (op u))
include h

/-- The rise of SELn ends a discarded transaction, or hands its request on. -/
theorem State.riseOfSel_keepsPorts : s.KeepsPorts (s.riseOfSel p op) := by
  cases kept : (s.ports[p]).discarded with
  | true =>
    rw [State.riseOfSel_discarded p op kept]
    exact .modPort (.refl s) (Port.discardEnded_keeps _)
  | false =>
    rw [State.riseOfSel_kept p op kept]
    exact State.KeepsPorts.trans (.modPort (.refl s) (Port.ended_keeps kept)) (h _)

theorem State.request_keepsPorts : s.KeepsPorts (s.request p op) :=
  State.riseOfSel_keepsPorts fun u => by
    split
    · exact .refuse (.refl u) ..
    · exact State.KeepsPorts.trans (.setCheckError (.refl u) p false) (h _)

end
end

/-- PORT SET names no place when both levels are within 1..32 (R161). -/
theorem portSetPlaces_isEmpty {attention shed : Byte} : (portSetPlaces attention shed).isEmpty = true ↔
    (1 ≤ attention.toNat ∧ attention.toNat ≤ 32) ∧ 1 ≤ shed.toNat ∧ shed.toNat ≤ 32 := by
  unfold portSetPlaces
  rw [inRange_eq, inRange_eq, List.isEmpty_iff, List.append_eq_nil_iff]
  simp

section
variable (s : State)

/-! ## The course, the pit, the locks and the settings -/

theorem State.changeCourse_keepsPorts (new : Course) (lamps : Nat) (next : Option Time) (cause : CourseCause) :
    s.KeepsPorts (s.changeCourse new lamps next cause) := .offerAll .of_ports _

theorem State.reqStart_keepsPorts (p : PortId) : s.KeepsPorts (s.reqStart p) :=
  State.reserved_keepsPorts <| by
    repeat' split
    · exact .refuse (.refl s) ..
    · exact .refuse (.refl s) ..
    · exact .done (s.changeCourse_keepsPorts ..) ..

theorem State.reqStop_keepsPorts (p : PortId) : s.KeepsPorts (s.reqStop p) :=
  State.reserved_keepsPorts <| by
    refine .done ?_ ..
    split
    · exact .refl s
    · exact s.changeCourse_keepsPorts ..

theorem State.reqCaution_keepsPorts (p : PortId) : s.KeepsPorts (s.reqCaution p) :=
  State.reserved_keepsPorts <| by
    split
    · exact .refuse (.refl s) ..
    · exact .refuse (.refl s) ..
    · exact .done (s.changeCourse_keepsPorts ..) ..
    · exact .done (.refl s) ..

theorem State.reqGreen_keepsPorts (p : PortId) : s.KeepsPorts (s.reqGreen p) :=
  State.reserved_keepsPorts <| by
    split
    · exact .refuse (.refl s) ..
    · exact .refuse (.refl s) ..
    · exact .done (.refl s) ..
    · exact .done (s.changeCourse_keepsPorts ..) ..

theorem State.marshalEdge_keepsPorts (i : Ident) (live : Bool) (code : LaneCode) (station : PortId) :
    s.KeepsPorts (s.marshalEdge i live code station) := by
  unfold State.marshalEdge
  dsimp only
  split
  · exact .offerWithRaceControl (.refl s) ..
  · split
    case h_1 | h_6 | h_7 | h_8 => exact .offerWithRaceControl (s.changeCourse_keepsPorts ..) ..
    all_goals exact .offerWithRaceControl (.refl s) ..

theorem State.faultReport_keepsPorts (w : SwitchId) : s.KeepsPorts (s.faultReport w) := by
  obtain ⟨-, -, e⟩ | ⟨-, e⟩ := s.faultReport_cases w
  · rw [e]
    exact s.changeCourse_keepsPorts ..
  · rw [e]
    exact .refl s

theorem State.announceFault_keepsPorts (w : SwitchId) (cause : FaultCause) (left : RunState) :
    s.KeepsPorts (s.announceFault w cause left) := by
  obtain e | e := s.announceFault_cases w cause left
  · rw [e]
    exact .offerWithRaceControl (.refl s) ..
  · rw [e]
    exact State.KeepsPorts.trans (.offerWithRaceControl (.refl s) ..) (State.faultReport_keepsPorts ..)

theorem State.reqPit_keepsPorts (p : PortId) (opened : Bool) : s.KeepsPorts (s.reqPit p opened) :=
  State.reserved_keepsPorts <| by
    refine .done ?_ ..
    split
    · exact .refl s
    · exact .offerAll .of_ports _

theorem State.reqZoneLock_keepsPorts (p : PortId) (zone lock : Byte) : s.KeepsPorts (s.reqZoneLock p zone lock) :=
  State.reserved_keepsPorts <| by
    dsimp only
    repeat' split
    · exact .refuseRange (.refl s) ..
    · exact .done (.refl s) ..
    · exact .done (.offerRaceControl .of_ports _) ..
    all_goals exact .refuseRange (.refl s) ..

/-! ## Bindings, marshals, offers and PAIR edges -/

theorem State.rebind_keepsPorts (c : CarId) (held : Option Held) (f : Binding → Binding) :
    s.KeepsPorts (s.rebind c held f) := .offerRaceControl .of_ports _

theorem State.moveBinding_keepsPorts (c : CarId) (source : HeldState → Bool) (target : HeldState) :
    s.KeepsPorts (s.moveBinding c source target) := by
  obtain ⟨_, -, -, e⟩ | ⟨-, e⟩ := s.moveBinding_cases c source target
  · rw [e]
    exact .offerRaceControl .of_ports _
  · rw [e]
    exact .refl s

theorem State.closeWindow_keepsPorts : s.KeepsPorts s.closeWindow := .offerAll .of_ports _

theorem State.reqOpenPairing_keepsPorts (p : PortId) (seconds : Byte) : s.KeepsPorts (s.reqOpenPairing p seconds) :=
  State.reserved_keepsPorts <| by
    repeat' split
    · exact .refuse (.refl s) ..
    · exact .refuse (.refl s) ..
    · exact .done (.offerAll .of_ports _) ..

theorem State.reqClosePairing_keepsPorts (p : PortId) : s.KeepsPorts (s.reqClosePairing p) :=
  State.reserved_keepsPorts <| by
    refine .done ?_ ..
    split
    · exact s.closeWindow_keepsPorts
    · exact .refl s

theorem State.reqRelease_keepsPorts (p : PortId) (car : Byte) : s.KeepsPorts (s.reqRelease p car) :=
  State.reserved_keepsPorts <| by
    split
    · exact .refuse (.refl s) ..
    · refine .done ?_ ..
      split
      · exact s.rebind_keepsPorts ..
      · exact .refl s

theorem State.pairWith_keepsPorts (i : Ident) (o : Offer) : s.KeepsPorts (s.pairWith i o) := by
  have released : s.KeepsPorts ((s.carOf i).elim s fun old => s.rebind old none id) := by
    cases s.carOf i with
    | none => exact .refl s
    | some old => exact s.rebind_keepsPorts ..
  unfold State.pairWith
  exact .modOffers (released.trans (State.rebind_keepsPorts ..)) _

theorem State.pairEdge_keepsPorts (i : Ident) (marshal : Bool) (station : PortId) (strength : BitVec 4) :
    s.KeepsPorts (s.pairEdge i marshal station strength) := by
  unfold State.pairEdge State.announcePair
  repeat' split
  · exact .offerWithRaceControl (.refl s) ..
  · exact .refl s
  · exact .offerWithRaceControl (.refl s) ..
  · exact .offerWithRaceControl (.refl s) ..
  · exact .offerWithRaceControl .of_ports ..
  · exact .offerWithRaceControl (s.pairWith_keepsPorts ..) ..

/-! ## Handset reports and the expiries of a record -/

theorem State.announceLink_keepsPorts (r : Handset) : s.KeepsPorts (s.announceLink r) := by
  unfold State.announceLink
  cases s.holderOf r with
  | none => exact .refl s
  | some holder => exact .offerWithRaceControl (.refl s) ..

theorem State.handLive_keepsPorts (r : Handset) : s.KeepsPorts (s.handLive r) := by
  unfold State.handLive
  refine .trans ?_ (State.announceLink_keepsPorts ..)
  cases r.boundCar with
  | none => exact .refl s
  | some c => exact s.moveBinding_keepsPorts c (· != .bound) .bound

theorem State.handLost_keepsPorts (r : Handset) : s.KeepsPorts (s.handLost r) := by
  unfold State.handLost
  refine .trans ?_ (State.announceLink_keepsPorts ..)
  cases r.boundCar with
  | none => exact .refl s
  | some c => exact s.moveBinding_keepsPorts c (· == .bound) .suspended

theorem State.laneEdge_keepsPorts (i : Ident) (code : LaneCode) : s.KeepsPorts (s.laneEdge i code) := by
  unfold State.laneEdge
  repeat' split
  all_goals exact .of_ports rfl

theorem State.handEdge_keepsPorts (r : Handset) (station : PortId) (strength : BitVec 4) :
    s.KeepsPorts (s.handEdge r station strength) := by
  unfold State.handEdge
  repeat' split
  · exact s.pairEdge_keepsPorts ..
  · exact s.marshalEdge_keepsPorts ..
  · exact s.laneEdge_keepsPorts ..
  · exact .refl s

theorem State.moveLink_keepsPorts (h : HandsetId) (r : Handset) (link : LinkState) :
    s.KeepsPorts (s.moveLink h r link) := by
  unfold State.moveLink
  dsimp only
  repeat' split
  · exact .refl s
  · exact .trans .of_ports (State.handLive_keepsPorts ..)
  · exact .of_ports

theorem State.batteryStep_keepsPorts (r : Handset) (wasLow : Bool) : s.KeepsPorts (s.batteryStep r wasLow) := by
  unfold State.batteryStep
  split
  · exact .refl s
  · exact .offerTo (.refl s) ..

theorem State.validate_keepsPorts (h : HandsetId) (rep : Report) (p : PortId) : s.KeepsPorts (s.validate h rep p) := by
  unfold State.validate
  dsimp only
  repeat' split
  · exact .trans .of_ports (State.handEdge_keepsPorts ..)
  · exact .of_ports
  · exact .refl s

theorem State.acceptReport_keepsPorts (p : PortId) (h : HandsetId) (old : Handset) (rep : Report) (link : LinkState) :
    s.KeepsPorts (s.acceptReport p h old rep link) :=
  .done (.trans .of_ports <| (State.moveLink_keepsPorts ..).trans <|
    (State.batteryStep_keepsPorts ..).trans (State.validate_keepsPorts ..)) ..

theorem State.firstReport_keepsPorts (p : PortId) (rep : Report) : s.KeepsPorts (s.firstReport p rep) := by
  unfold State.firstReport
  split
  · exact .trans .of_ports (State.acceptReport_keepsPorts ..)
  · refine .done ?_ ..
    split
    · exact .offerRaceControl .of_ports _
    · exact .refl s

theorem State.knownReport_keepsPorts (p : PortId) (h : HandsetId) (r : Handset) (rep : Report) :
    s.KeepsPorts (s.knownReport p h r rep) := by
  unfold State.knownReport
  dsimp only
  split
  case h_1 | h_2 => exact s.acceptReport_keepsPorts ..
  all_goals
    split
    · exact .done .of_ports ..
    · split
      · exact .done .of_ports ..
      · exact s.acceptReport_keepsPorts ..

theorem State.reqReportHandset_keepsPorts (p : PortId) (identity : Ident)
    (count throttle code battery strength : Byte) :
    s.KeepsPorts (s.reqReportHandset p identity count throttle code battery strength) := by
  unfold State.reqReportHandset State.filterReport
  dsimp only
  split
  · split
    · next h _ =>
      cases s.handsets.records[h] with
      | none => exact .refl s
      | some r => exact s.knownReport_keepsPorts ..
    · exact s.firstReport_keepsPorts ..
  · exact .refuseRange (.refl s) ..

/-! ## Decisions and crossings -/

theorem State.announceDecision_keepsPorts (w : SwitchId) (c : CarId) (d : Decision) :
    s.KeepsPorts (s.announceDecision w c d) := .offerWithRaceControl (.refl s) ..

theorem State.grant_keepsPorts (c : CarId) (w : SwitchId) : s.KeepsPorts (s.grant c w) := by
  unfold State.grant
  dsimp only
  repeat' split
  · exact .refl s
  · exact .offerWithRaceControl (.offerTo .of_ports ..) ..
  · exact .offerWithRaceControl (.clearIntent (.offerTo .of_ports ..) _) ..

theorem State.decidePassage_keepsPorts (c : CarId) (w : SwitchId) : s.KeepsPorts (s.decidePassage c w) := by
  unfold State.decidePassage
  split
  · exact s.grant_keepsPorts ..
  · refine .trans ?_ (State.announceDecision_keepsPorts ..)
    split
    · exact .of_ports
    · exact .refl s

theorem State.holdCar_keepsPorts (c : CarId) (w : SwitchId) (reason : DecisionReason) :
    s.KeepsPorts (s.holdCar c w reason) := .offerWithRaceControl .of_ports ..

theorem State.decideExit_keepsPorts (c : CarId) (w : SwitchId) : s.KeepsPorts (s.decideExit c w) := by
  unfold State.decideExit
  repeat' split
  · exact s.grant_keepsPorts ..
  · exact s.holdCar_keepsPorts ..
  · exact s.holdCar_keepsPorts ..

theorem State.decideEntry_keepsPorts (c : CarId) (w : SwitchId) : s.KeepsPorts (s.decideEntry c w) := by
  unfold State.decideEntry
  dsimp only
  repeat' split
  · exact s.decideExit_keepsPorts ..
  · exact s.decidePassage_keepsPorts ..
  · exact .of_ports
  · exact .refl s

theorem State.recheckHead_keepsPorts (w : SwitchId) (head : Hold) : s.KeepsPorts (s.recheckHead w head) := by
  unfold State.recheckHead
  repeat' split
  · exact .trans .of_ports (State.grant_keepsPorts ..)
  · exact .refl s
  · exact .trans .of_ports (State.announceDecision_keepsPorts ..)

theorem State.reconcileAt_keepsPorts (c : CarId) (n : SensorId) (lane : Byte) (w : SwitchId) :
    s.KeepsPorts (State.reconcileAt c n lane s w) := by
  unfold State.reconcileAt
  dsimp only
  repeat' split
  · exact .of_ports
  · exact .offerWithRaceControl .of_ports ..
  · exact .refl s
  · exact .refl s

theorem State.conflictTest_keepsPorts (z : ZoneId) (c : CarId) (stamp : Time) :
    s.KeepsPorts (s.conflictTest z c stamp) := by
  unfold State.conflictTest
  cases s.conflictIn z c stamp with
  | none => exact .refl s
  | some other => exact .offerRaceControl .of_ports _

theorem State.jumpTest_keepsPorts (n : SensorId) (c : CarId) (stamp : Time) : s.KeepsPorts (s.jumpTest n c stamp) := by
  unfold State.jumpTest
  split
  · exact .offerRaceControl (.refl s) _
  · exact .refl s

theorem State.handOn_keepsPorts (n : SensorId) (z : ZoneId) (w : Option SwitchId) (c : CarId) (stamp : Time) :
    s.KeepsPorts (s.handOn n z w c stamp) := by
  have reconciled : s.KeepsPorts (s.reconcile c n s.geo.zones[z].lane) :=
    .foldl (fun u w => u.reconcileAt_keepsPorts c n _ w) s _
  have handedOver : s.KeepsPorts (s.handOver n z c stamp) := reconciled.trans <| .trans .of_ports <|
    (State.conflictTest_keepsPorts ..).trans (State.jumpTest_keepsPorts ..)
  unfold State.handOn
  dsimp only
  generalize s.handOver n z c stamp = u at handedOver
  cases w with
  | none => exact handedOver
  | some w => exact handedOver.trans (u.decideEntry_keepsPorts c w)

theorem State.trackCrossing_keepsPorts (p : PortId) (n : SensorId) (z : ZoneId) (w : Option SwitchId) (c : CarId)
    (stamp : Time) : s.KeepsPorts (s.trackCrossing p n z w c stamp) := by
  unfold State.trackCrossing
  repeat' split
  · exact .done (.refl s) ..
  · exact .done (.offerRaceControl (.refl s) _) ..
  · exact .done (.trans .of_ports (State.handOn_keepsPorts ..)) ..

theorem State.reqReportCrossing_keepsPorts (p : PortId) (sensor car age : Byte) :
    s.KeepsPorts (s.reqReportCrossing p sensor car age) := by
  have pairing (n : SensorId) (c : CarId) (stamp : Time) : s.KeepsPorts (s.pairingCrossing p n c stamp) := by
    unfold State.pairingCrossing
    split
    · exact .done .of_ports ..
    · exact .done (.refl s) ..
  unfold State.reqReportCrossing
  dsimp only
  repeat' split
  · exact .refuse (.refl s) ..
  · exact .refuse (.refl s) ..
  · exact .refuse (.refl s) ..
  · exact .refuse (.refl s) ..
  · exact pairing ..
  · exact s.trackCrossing_keepsPorts ..
  · exact s.trackCrossing_keepsPorts ..

/-! ## Switches -/

theorem State.closePending_keepsPorts (w : SwitchId) (cl : Claim) (mode : SwitchMode) (ps : Position) (o : FinalOutcome) :
    s.KeepsPorts (s.closePending w cl mode ps o) := .offerWithRaceControl .of_ports ..

theorem State.closeSet_keepsPorts (w : SwitchId) (cl : Claim) (mode : SwitchMode) (ps : Position) :
    s.KeepsPorts (s.closeSet w cl mode ps) := .offerWithRaceControl .of_ports ..

theorem State.restoreSwitch_keepsPorts (w : SwitchId) (cl : Claim) : s.KeepsPorts (s.restoreSwitch w cl) := by
  unfold State.restoreSwitch
  split
  · exact (s.closeSet_keepsPorts ..).trans (State.announceFault_keepsPorts ..)
  · exact .offerWithRaceControl (.setSwitch (.offerTo (.refl s) ..) ..) ..

theorem State.takeThrown_keepsPorts (p : PortId) (w : SwitchId) : s.KeepsPorts (s.takeThrown p w) := by
  unfold State.takeThrown
  split
  case h_1 => exact .done .of_ports ..
  all_goals exact .refuse (.refl s) ..

theorem State.takeReturned_keepsPorts (p : PortId) (w : SwitchId) : s.KeepsPorts (s.takeReturned p w) := by
  unfold State.takeReturned
  split
  case h_1 => exact .done (s.closePending_keepsPorts ..) ..
  case h_2 => exact .done (s.closeSet_keepsPorts ..) ..
  case h_3 => exact .done .of_ports ..
  all_goals exact .refuse (.refl s) ..

theorem State.takeJammed_keepsPorts (p : PortId) (w : SwitchId) (ps : Position) :
    s.KeepsPorts (s.takeJammed p w ps) := by
  unfold State.takeJammed
  refine .done (.trans ?_ (State.announceFault_keepsPorts ..)) ..
  split
  case h_1 => exact s.closePending_keepsPorts ..
  case h_2 => exact s.closeSet_keepsPorts ..
  all_goals exact .of_ports

theorem State.reqReportSwitch_keepsPorts (p : PortId) (switch kind position : Byte) :
    s.KeepsPorts (s.reqReportSwitch p switch kind position) := by
  unfold State.reqReportSwitch
  repeat' split
  · exact .refuse (.refl s) ..
  · exact .refuse (.refl s) ..
  · exact .refuse (.refl s) ..
  · exact s.takeThrown_keepsPorts ..
  · exact s.takeReturned_keepsPorts ..
  · cases positionOf position with
    | none => exact .refuse (.refl s) ..
    | some ps => exact s.takeJammed_keepsPorts ..
  · exact .refuse (.refl s) ..

theorem State.reqSwitch_keepsPorts (p : PortId) (r : SwitchRequest) (switch : Byte) :
    s.KeepsPorts (s.reqSwitch p r switch) :=
  State.reserved_keepsPorts <| by
    repeat' split
    · exact .refuse (.refl s) ..
    · exact .refuse (.refl s) ..
    · exact .done (.offerWithRaceControl .of_ports ..) ..

/-! ## Track clear and the layout phase -/

theorem State.reqTrackClear_keepsPorts (p : PortId) : s.KeepsPorts (s.reqTrackClear p) :=
  State.reserved_keepsPorts <| by
    have turn (u : State) (w : SwitchId) : u.KeepsPorts (u.clearSwitch w) := by
      unfold State.clearSwitch
      split
      · exact u.restoreSwitch_keepsPorts ..
      · exact .refl u
    have cleared : s.KeepsPorts s.clearPositions.clearLane := .of_ports
    have turned := cleared.trans (.foldl turn _ (List.finRange 32))
    split
    · exact .refuse (.refl s) ..
    · exact .done (turned.offerAll _) ..

theorem State.reqLayoutRun_keepsPorts (p : PortId) : s.KeepsPorts (s.reqLayoutRun p) :=
  State.reserved_keepsPorts <| by
    repeat' split
    · exact .refuse (.refl s) ..
    · exact .refuse (.refl s) ..
    · exact .refuse (.refl s) ..
    · exact .done (.offerAll .of_ports _) ..

theorem State.reqLayoutEdit_keepsPorts (p : PortId) : s.KeepsPorts (s.reqLayoutEdit p) :=
  State.reserved_keepsPorts <| by
    repeat' split
    · exact .refuse (.refl s) ..
    · exact .refuse (.refl s) ..
    · exact .refuse (.refl s) ..
    · exact .done (.offerAll .of_ports _) ..

/-! ## Staging and applies -/

theorem State.applyRecord_keepsPorts (p : PortId) (ref : RecordRef) (image : List Byte) :
    s.KeepsPorts (s.applyRecord p ref image) := by
  have refused (r : Reason) : s.KeepsPorts (s.refuse p r) := .refuse (.refl s) ..
  cases ref with
  | zone z =>
    change s.KeepsPorts (s.applyZone p z image)
    unfold State.applyZone
    split
    · exact refused _
    · exact .done .of_ports ..
  | switch w =>
    change s.KeepsPorts (s.applySwitch p w image)
    unfold State.applySwitch
    split
    · exact refused _
    · exact .done .of_ports ..
  | sensor n =>
    change s.KeepsPorts (s.applySensor p n image)
    unfold State.applySensor
    split
    · exact refused _
    · exact .done .of_ports ..
  | settings =>
    change s.KeepsPorts (s.applySettings p image)
    unfold State.applySettings
    split
    · exact refused _
    · exact .done (.offerRaceControl .of_ports _) ..
  | binding c =>
    change s.KeepsPorts (s.applyBinding p c image)
    unfold State.applyBinding
    repeat' split
    · exact refused _
    · exact refused _
    · exact refused _
    · exact .done (s.rebind_keepsPorts ..) ..
  | marshal m =>
    change s.KeepsPorts (s.applyMarshal p m image)
    unfold State.applyMarshal
    dsimp only
    split
    · exact refused _
    · exact .done (.offerRaceControl .of_ports _) ..
  | handset h | car c => exact refused _

theorem State.applyStaged_keepsPorts (p : PortId) (st : Staging) : s.KeepsPorts (s.applyStaged p st) := by
  have emptied : s.KeepsPorts (s.setStaging p none) := .setStaging (.refl s) ..
  unfold State.applyStaged
  dsimp only
  repeat' split
  · exact emptied.refuse ..
  · exact emptied.refuse ..
  · exact emptied.refuse ..
  · exact emptied.refuse ..
  · exact emptied.trans (State.applyRecord_keepsPorts ..)

theorem State.reqApply_keepsPorts (p : PortId) : s.KeepsPorts (s.reqApply p) := by
  unfold State.reqApply
  split
  · exact .refuse (.refl s) ..
  · exact s.applyStaged_keepsPorts ..

theorem State.reqPut_keepsPorts (p : PortId) (values : List Byte) : s.KeepsPorts (s.reqPut p values) := by
  have emptied : s.KeepsPorts (s.setStaging p none) := .setStaging (.refl s) ..
  unfold State.reqPut
  dsimp only
  repeat' split
  · exact .refuse (.refl s) ..
  · exact emptied.refuse ..
  · exact emptied.refuse ..
  · exact .refuse (emptied.countFree _) ..
  · exact s.applyStaged_keepsPorts ..
  · exact .done (.setStaging (.refl s) ..) ..

/-! ## The other requests of a port, and STORE SAVE -/

theorem State.reqTake_keepsPorts (p : PortId) : s.KeepsPorts (s.reqTake p) := by
  unfold State.reqTake
  split
  · exact .done (.refl s) ..
  · next head => exact .done (.modPort (.refl s) (Port.taken_keeps head)) ..

theorem State.reqPortSet_keepsPorts (p : PortId) (attention shed : Byte) :
    s.KeepsPorts (s.reqPortSet p attention shed) := by
  unfold State.reqPortSet
  split
  · next within =>
    obtain ⟨ha, hs⟩ := portSetPlaces_isEmpty.1 within
    exact .done (.modPort (.refl s) (Port.levelled_keeps _ ha hs)) ..
  · exact .refuseRange (.refl s) ..

theorem State.reqSelect_keepsPorts (p : PortId) (table index : Byte) : s.KeepsPorts (s.reqSelect p table index) := by
  unfold State.reqSelect
  split
  · exact .refuse (.refl s) ..
  · exact .done (.modPort (.refl s) ⟨rfl, id⟩) ..

theorem State.reqFetch_keepsPorts (p : PortId) : s.KeepsPorts (s.reqFetch p) := by
  unfold State.reqFetch
  split
  · exact .refuse (.refl s) ..
  · exact .done (.modPort (.refl s) ⟨rfl, id⟩) ..

theorem State.reqStoreSave_keepsPorts (p : PortId) (row : Byte) : s.KeepsPorts (s.reqStoreSave p row) :=
  State.reserved_keepsPorts <| by
    repeat' split
    · exact .refuse (.refl s) ..
    · exact .refuse (.refl s) ..
    · exact .refuse (.refl s) ..
    · exact .done .of_ports ..

/-! ## Every request -/

theorem State.carryOut_keepsPorts (p : PortId) (name : RequestName) (payload : List Byte) :
    s.KeepsPorts (s.carryOut p name payload) := by
  cases name with
  | poll => exact .done (.refl s) ..
  | take => exact s.reqTake_keepsPorts ..
  | portStatus => exact .done (.modPort (.refl s) (Port.cleared_keeps _)) ..
  | portSet => exact s.reqPortSet_keepsPorts ..
  | portReset => exact .modPort (.refl s) (Port.portReset_keeps _)
  | select => exact s.reqSelect_keepsPorts ..
  | fetch => exact s.reqFetch_keepsPorts ..
  | put => exact s.reqPut_keepsPorts ..
  | apply => exact s.reqApply_keepsPorts ..
  | reportHandset => exact s.reqReportHandset_keepsPorts ..
  | reportCrossing => exact s.reqReportCrossing_keepsPorts ..
  | reportSwitch => exact s.reqReportSwitch_keepsPorts ..
  | start => exact s.reqStart_keepsPorts ..
  | stop => exact s.reqStop_keepsPorts ..
  | caution => exact s.reqCaution_keepsPorts ..
  | green => exact s.reqGreen_keepsPorts ..
  | pitOpen | pitClose => exact s.reqPit_keepsPorts ..
  | zoneLock => exact s.reqZoneLock_keepsPorts ..
  | trackClear => exact s.reqTrackClear_keepsPorts ..
  | switchDisable | switchEnable | switchClear => exact s.reqSwitch_keepsPorts ..
  | layoutRun => exact s.reqLayoutRun_keepsPorts ..
  | layoutEdit => exact s.reqLayoutEdit_keepsPorts ..
  | openPairing => exact s.reqOpenPairing_keepsPorts ..
  | closePairing => exact s.reqClosePairing_keepsPorts ..
  | release => exact s.reqRelease_keepsPorts ..
  | storeSave => exact s.reqStoreSave_keepsPorts ..

theorem State.judgeFrame_keepsPorts (p : PortId) (bytes : List Byte) : s.KeepsPorts (s.judgeFrame p bytes) := by
  have cleared : s.KeepsPorts (s.setCheckError p false) := .setCheckError (.refl s) ..
  unfold State.judgeFrame State.judgeRequest State.checkErrorReply
  dsimp only
  repeat' split
  · exact .refuse (.refl s) ..
  · exact .frameError (.refl s) _
  · exact .reply (.countLinkError (.setCheckError (.refl s) ..) _) ..
  · exact cleared.refuse ..
  · exact cleared.frameError _
  · exact cleared.trans (State.carryOut_keepsPorts ..)

end

end Sys2Proof.Machine
end

section
/-! The straps fix the rights at a hard reset, no other command moves them, and a reserved request without rights is refused
(R114). -/

namespace Sys2Proof.Machine

-- One after the other, the proofs need no thread each.
set_option Elab.async false

/-! ## Events -/

/-- The outcome o of a command is a next state whose ports have kept their rights and bounds. -/
def State.nextKeepsPorts (s : State) (o : Host.Outcome State Fault Refusal) : Prop :=
  ∃ t : State, o = .next t ∧ s.KeepsPorts t

section
variable {s : State}

theorem State.nextKeepsPorts.next {t : State} (h : s.KeepsPorts t) : s.nextKeepsPorts (.next t) := ⟨t, rfl, h⟩

/-- An event that is not due changes nothing. -/
theorem State.nextKeepsPorts.due {due : Prop} [Decidable due] {t : State} (h : s.KeepsPorts t) :
    s.nextKeepsPorts (if due then .next t else .next s) := by
  split
  · exact .next h
  · exact .next (.refl s)

end

section
variable (s : State)

/-! ### Handset records, passages and cars -/

theorem execStaleExpiry_keepsPorts (h : HandsetId) : s.nextKeepsPorts (execStaleExpiry h s) := by
  unfold execStaleExpiry
  split
  · exact .due (.trans .of_ports (State.announceLink_keepsPorts ..))
  · exact .next (.refl s)

theorem execHandsetLostExpiry_keepsPorts (h : HandsetId) : s.nextKeepsPorts (execHandsetLostExpiry h s) := by
  unfold execHandsetLostExpiry
  split
  · exact .due (.freeIfForsaken (.trans .of_ports (State.handLost_keepsPorts ..)) _)
  · exact .next (.refl s)

theorem execPitExitRecheck_keepsPorts (w : SwitchId) : s.nextKeepsPorts (execPitExitRecheck w s) := by
  unfold execPitExitRecheck
  split
  case h_1 => exact .due (.modSwitch (s.recheckHead_keepsPorts ..) ..)
  all_goals exact .next (.refl s)

theorem execActuationDeadline_keepsPorts (w : SwitchId) : s.nextKeepsPorts (execActuationDeadline w s) := by
  unfold execActuationDeadline
  split
  case h_1 => exact .due ((s.closePending_keepsPorts ..).trans (State.announceFault_keepsPorts ..))
  all_goals exact .next (.refl s)

theorem execHoldDeadline_keepsPorts (w : SwitchId) : s.nextKeepsPorts (execHoldDeadline w s) := by
  unfold execHoldDeadline
  split
  case h_1 => exact .due (s.restoreSwitch_keepsPorts ..)
  all_goals exact .next (.refl s)

theorem execRestoringActuationDeadline_keepsPorts (w : SwitchId) :
    s.nextKeepsPorts (execRestoringActuationDeadline w s) := by
  unfold execRestoringActuationDeadline
  split
  case h_1 => exact .due (.trans .of_ports (State.announceFault_keepsPorts ..))
  all_goals exact .next (.refl s)

theorem execStall_keepsPorts (c : CarId) : s.nextKeepsPorts (execStall c s) := by
  unfold execStall
  split
  · exact .due (.offerRaceControl .of_ports _)
  · exact .next (.refl s)

theorem execLampExpiry_keepsPorts : s.nextKeepsPorts (execLampExpiry s) := by
  unfold execLampExpiry
  repeat' split
  · exact .next (s.changeCourse_keepsPorts ..)
  · exact .next .of_ports
  · exact .next (.refl s)
  · exact .next (.refl s)

/-! ### The Bind Store -/

theorem State.chooseCommit_keepsPorts : s.KeepsPorts s.chooseCommit := by
  unfold State.chooseCommit
  cases s.autoChoice with
  | none => exact .refl s
  | some r => exact .of_ports (by simp)

theorem State.setMark_keepsPorts (r : RowId) (mark : Mark) : s.KeepsPorts (s.setMark r mark) := by
  rw [State.setMark_eq]
  exact .of_ports

theorem State.storeDone_keepsPorts (c : Commit) (outcome : StoreOutcome) : s.KeepsPorts (s.storeDone c outcome) := by
  unfold State.storeDone
  split
  · exact .refl s
  · exact .offerTo (.refl s) ..

/-- A commit that ends leaves the writer IDLE, and tells its port. -/
theorem State.ended_keepsPorts (c : Commit) (outcome : StoreOutcome) :
    s.KeepsPorts ((s.setWriter .idle).storeDone c outcome) := .trans .of_ports (State.storeDone_keepsPorts ..)

theorem State.completeCommit_keepsPorts (c : Commit) : s.KeepsPorts (s.completeCommit c) := by
  have written : s.KeepsPorts (s.setRow c.row (rowOf c.content)) := .of_ports
  unfold State.completeCommit
  refine .trans ?_ (State.ended_keepsPorts ..)
  split
  · exact written.trans (State.setMark_keepsPorts ..)
  · exact written

theorem State.cutCommit_keepsPorts (c : Commit) : s.KeepsPorts (s.cutCommit c) := by
  unfold State.cutCommit
  split
  · exact (s.setMark_keepsPorts ..).trans (State.ended_keepsPorts ..)
  · exact .refl s

theorem execWriterStepEnd_keepsPorts : s.nextKeepsPorts (execWriterStepEnd s) := by
  unfold execWriterStepEnd
  split
  case h_1 => exact .due .of_ports
  all_goals exact .next (.refl s)

theorem execCommitCompletion_keepsPorts : s.nextKeepsPorts (execCommitCompletion s) := by
  unfold execCommitCompletion
  split
  case h_1 => exact .due (s.completeCommit_keepsPorts _)
  all_goals exact .next (.refl s)

theorem execStweFall_keepsPorts : s.nextKeepsPorts (execStweFall s) := by
  refine .due (.trans (t := { s with store := { s.store with stwe := false } }) .of_ports ?_)
  cases s.store.writer.commit with
  | none => exact .refl _
  | some c => exact State.cutCommit_keepsPorts _ c

/-! ### The start-up -/

theorem State.restoreMarshal_keepsPorts (m : MarshalId) : s.KeepsPorts (s.restoreMarshal m) := by
  unfold State.restoreMarshal
  dsimp only
  split
  · exact .offerRaceControl .of_ports _
  · exact .of_ports

theorem State.restoreCar_keepsPorts (c : CarId) : s.KeepsPorts (s.restoreCar c) := by
  unfold State.restoreCar
  dsimp only
  split
  · exact .offerRaceControl .of_ports _
  · exact .of_ports

theorem execRestore_keepsPorts : s.nextKeepsPorts (execRestore s) := by
  have rows : s.KeepsPorts s.restoreRows :=
    (State.KeepsPorts.foldl State.restoreMarshal_keepsPorts s _).trans
      (State.KeepsPorts.foldl State.restoreCar_keepsPorts _ _)
  unfold execRestore
  dsimp only
  generalize s.restoreRows = u at rows
  exact .due (rows.trans .of_ports)

theorem execRestoreEnd_keepsPorts : s.nextKeepsPorts (execRestoreEnd s) :=
  .due (.trans .of_ports (State.chooseCommit_keepsPorts _))

end

/-! ## Every command -/

/-- Every command but a hard reset keeps the rights and the bounds of every port. -/
theorem exec_keepsPorts {c : Instr} (pulse : ∀ rcs : BitVec 4, c ≠ .hardReset rcs) (s : State) :
    s.nextKeepsPorts (exec c s) := by
  have request {p : PortId} {op : State → State} (h : ∀ u : State, u.KeepsPorts (op u)) :
      s.nextKeepsPorts (.next (s.request p op)) := .next (State.request_keepsPorts h)
  cases c
  case hardReset rcs => exact absurd rfl (pulse rcs)
  case selnFall p => exact .next (.modPort (.refl s) (Port.selnFall_keeps ..))
  case requestFrame p sdi =>
    refine .next (State.riseOfSel_keepsPorts fun u => ?_)
    split
    · exact .refl u
    · exact u.judgeFrame_keepsPorts ..
  case put p values =>
    refine .next (State.riseOfSel_keepsPorts fun u => ?_)
    have cleared : u.KeepsPorts (u.setCheckError p false) := .setCheckError (.refl u) ..
    dsimp only
    repeat' split
    · exact .refuse (.refl u) ..
    · exact .frameError (.refl u) _
    · exact cleared.frameError _
    · exact cleared.trans (State.reqPut_keepsPorts ..)
  case poll p => exact request fun u => .done (.refl u) ..
  case take p => exact request fun u => u.reqTake_keepsPorts p
  case portStatus p => exact request fun u => u.carryOut_keepsPorts p .portStatus []
  case portSet p a b => exact request fun u => u.reqPortSet_keepsPorts ..
  case portReset p => exact request fun u => .modPort (.refl u) (Port.portReset_keeps _)
  case select => exact request fun u => u.reqSelect_keepsPorts ..
  case fetch => exact request fun u => u.reqFetch_keepsPorts _
  case apply => exact request fun u => u.reqApply_keepsPorts _
  case reportHandset => exact request fun u => u.reqReportHandset_keepsPorts ..
  case reportCrossing => exact request fun u => u.reqReportCrossing_keepsPorts ..
  case reportSwitchThrown | reportSwitchReturned | reportSwitchJammed | reportSwitchUnknownKind =>
    exact request fun u => u.reqReportSwitch_keepsPorts ..
  case start => exact request fun u => u.reqStart_keepsPorts _
  case stop => exact request fun u => u.reqStop_keepsPorts _
  case caution => exact request fun u => u.reqCaution_keepsPorts _
  case green => exact request fun u => u.reqGreen_keepsPorts _
  case pitOpen | pitClose => exact request fun u => u.reqPit_keepsPorts ..
  case zoneLock => exact request fun u => u.reqZoneLock_keepsPorts ..
  case trackClear => exact request fun u => u.reqTrackClear_keepsPorts _
  case switchDisable | switchEnable | switchClear => exact request fun u => u.reqSwitch_keepsPorts ..
  case layoutRun => exact request fun u => u.reqLayoutRun_keepsPorts _
  case layoutEdit => exact request fun u => u.reqLayoutEdit_keepsPorts _
  case openPairing => exact request fun u => u.reqOpenPairing_keepsPorts ..
  case closePairing => exact request fun u => u.reqClosePairing_keepsPorts _
  case release => exact request fun u => u.reqRelease_keepsPorts ..
  case storeSave => exact request fun u => u.reqStoreSave_keepsPorts ..
  case trackTimeTick | stweRise => exact .next (.of_ports rfl)
  case offerExpiry => exact .next .of_ports
  case writerCommitStart => exact .next s.chooseCommit_keepsPorts
  case intentExpiry => exact .due .of_ports
  case conflictCapEnd => exact .due (.of_ports rfl)
  case pairingWindowExpiry => exact .due s.closeWindow_keepsPorts
  case railFrameStart | broadcastWord | carWord | quietWindow => exact .due .of_ports
  case staleExpiry h => exact execStaleExpiry_keepsPorts s h
  case handsetLostExpiry h => exact execHandsetLostExpiry_keepsPorts s h
  case pitExitRecheck w => exact execPitExitRecheck_keepsPorts s w
  case actuationDeadline w => exact execActuationDeadline_keepsPorts s w
  case holdDeadline w => exact execHoldDeadline_keepsPorts s w
  case restoringActuationDeadline w => exact execRestoringActuationDeadline_keepsPorts s w
  case stall c => exact execStall_keepsPorts s c
  case lampExpiry => exact execLampExpiry_keepsPorts s
  case writerStepEnd => exact execWriterStepEnd_keepsPorts s
  case commitCompletion => exact execCommitCompletion_keepsPorts s
  case stweFall => exact execStweFall_keepsPorts s
  case restore => exact execRestore_keepsPorts s
  case restoreEnd => exact execRestoreEnd_keepsPorts s

/-! ## The straps (R114) -/

/-- With a strap high, the straps name the ports with rights; with every strap low, port 0 alone has them. -/
theorem strapRights_iff {rcs : BitVec 4} {p : PortId} :
    strapRights rcs p = true ↔ rcs.getLsbD p.val = true ∨ (rcs = 0 ∧ p = 0) := by
  unfold strapRights
  split
  · next low => simp [low]
  · next high => exact (or_iff_left fun low => high low.1).symm

/-- Every command but a hard reset leaves the straps as they were sampled. -/
theorem exec_rcs {c : Instr} (pulse : ∀ rcs : BitVec 4, c ≠ .hardReset rcs) (s : State) :
    ∃ t : State, exec c s = .next t ∧ t.rcs = s.rcs := by
  have due {event : Prop} [Decidable event] {u : State} (same : u.rcs = s.rcs) :
      ∃ t : State, (if event then .next u else .next s : Host.Outcome State Fault Refusal) = .next t ∧ t.rcs = s.rcs := by
    split
    · exact ⟨_, rfl, same⟩
    · exact ⟨_, rfl, rfl⟩
  cases moves : movesSequencer c with
  | false =>
    obtain ⟨t, e, orderly⟩ := exec_orderly moves s
    exact ⟨t, e, orderly.rcs⟩
  | true =>
    cases c
    case hardReset rcs => exact absurd rfl (pulse rcs)
    case trackTimeTick => exact ⟨_, rfl, rfl⟩
    case restore =>
      have rows := s.restoreRows_orderly.rcs
      change ∃ t : State, execRestore s = .next t ∧ _
      unfold execRestore
      dsimp only
      generalize s.restoreRows = u at rows
      exact due rows
    case restoreEnd => exact due (State.chooseCommit_orderly _).rcs
    case railFrameStart | broadcastWord | carWord | quietWindow => exact due rfl
    all_goals cases moves

/-! ## Reserved requests (Table 6-1) -/

/-- A reserved request on a port without rights. -/
theorem State.request_without {s : State} {p : PortId} (op : State → State) (takes : s.takes p)
    (without : (s.ports[p]).raceControl = false) : s.request p (·.reserved p op) = s.answer p (.refused .notPermitted) := by
  rw [State.request_running p _ takes, ← State.taken_refuse]
  refine State.reserved_without op ?_
  rw [State.taken_ports, if_pos rfl]
  exact without

/-- The requests of Table 6-1 are those that the model reserves. -/
theorem exec_reserved {p : PortId} {a b : Byte} {c : Instr}
    (listed : c ∈ [.start p, .stop p, .caution p, .green p, .pitOpen p, .pitClose p, .zoneLock p a b, .trackClear p,
      .switchDisable p a, .switchEnable p a, .switchClear p a, .layoutRun p, .layoutEdit p, .openPairing p a,
      .closePairing p, .release p a, .storeSave p a]) (s : State) :
    ∃ op : State → State, exec c s = .next (s.request p (·.reserved p op)) := by
  simp only [List.mem_cons, List.not_mem_nil, or_false] at listed
  obtain rfl | rfl | rfl | rfl | rfl | rfl | rfl | rfl | rfl | rfl | rfl | rfl | rfl | rfl | rfl | rfl | rfl := listed
  all_goals exact ⟨_, rfl⟩

/-- Settles O4: the hard reset by its straps, every other command by what it keeps, and the reserved requests by the refusal
that comes before their tests. -/
theorem rightsAreFixedAtHardReset : Obligations.RightsAreFixedAtHardReset := by
  refine ⟨fun rcs s => ⟨_, rfl, rfl, fun p => ?_⟩, fun c s t pulse h => ⟨?_, fun p => ?_⟩,
    fun p a b c s listed takes without => ?_⟩
  · dsimp only
    rw [mapAll_get]
    exact strapRights_iff
  · obtain ⟨u, e, same⟩ := exec_rcs pulse s
    cases e.symm.trans h
    exact same
  · obtain ⟨u, e, kept⟩ := exec_keepsPorts pulse s
    cases e.symm.trans h
    exact (kept.port p).rights
  · obtain ⟨op, e⟩ := exec_reserved listed s
    rw [e, State.request_without op takes without]

end Sys2Proof.Machine
end

section
/-! The rail frame: a bit period on an empty queue (R131), the parts of the frame with the word counter and RDO in each
(R131 to R136), and the word of a car (R137 to R139, R168). -/

namespace Sys2Proof.Machine

/-! ## Positions (R131, R133) -/

section
variable {q : Sequencer}

theorem Sequencer.sync_position (h : q.bitCounter.val < 12) :
    q.wordCounter = 0 ∧ q.rdoLevel = q.rdo.getD q.bitCounter.val false := by
  have start : partStart q.bitCounter.val = 0 := if_pos h
  exact ⟨if_pos h, by rw [Sequencer.rdoLevel, start, Nat.sub_zero]⟩

theorem Sequencer.broadcast_position (from12 : 12 ≤ q.bitCounter.val) (to24 : q.bitCounter.val < 24) :
    q.wordCounter = 1 ∧ q.rdoLevel = q.rdo.getD (q.bitCounter.val - 12) false := by
  have start : partStart q.bitCounter.val = 12 := by rw [partStart, if_neg (by omega), if_pos to24]
  exact ⟨by rw [Sequencer.wordCounter, if_neg (by omega), if_pos to24], by rw [Sequencer.rdoLevel, start]⟩

theorem Sequencer.car_position {c : CarId} (begun : 24 + 10 * c.val ≤ q.bitCounter.val)
    (inside : q.bitCounter.val < 34 + 10 * c.val) :
    q.wordCounter = 2 + c.val ∧ q.rdoLevel = q.rdo.getD (q.bitCounter.val - (24 + 10 * c.val)) false := by
  have slot : (q.bitCounter.val - 24) / 10 = c.val := by omega
  have start : partStart q.bitCounter.val = 24 + 10 * c.val := by
    rw [partStart, if_neg (by omega), if_neg (by omega), if_pos (by omega), slot]
  exact ⟨by rw [Sequencer.wordCounter, if_neg (by omega), if_neg (by omega), if_pos (by omega), slot],
    by rw [Sequencer.rdoLevel, start]⟩

theorem Sequencer.quiet_position (h : 184 ≤ q.bitCounter.val) :
    q.wordCounter = 17 ∧ (q.rdo = [] → q.rdoLevel = false) :=
  ⟨by rw [Sequencer.wordCounter, if_neg (by omega), if_neg (by omega), if_neg (by omega)],
    fun idle => by rw [Sequencer.rdoLevel, idle]; rfl⟩

end

/-! ## The broadcast word (R136) -/

theorem ones_eq_count (bits : List Bool) : ones bits = bits.count true :=
  List.countP_congr fun b _ => by cases b <;> decide

/-- The first nine bits of the broadcast word. -/
def broadcastFields (frame : Fin 8) (course : Course) (lamps : Nat) (pitOpen : Bool) : List Bool :=
  bitsOf (BitVec.ofNat 3 frame.val) ++ bitsOf (BitVec.ofNat 2 course.byte.toNat) ++ bitsOf (BitVec.ofNat 3 lamps) ++
    [pitOpen]

theorem broadcastBits_eq (frame : Fin 8) (course : Course) (lamps : Nat) (pitOpen : Bool) :
    broadcastBits frame course lamps pitOpen = broadcastFields frame course lamps pitOpen ++
      bitsOf (BitVec.ofNat 3 ((broadcastFields frame course lamps pitOpen).count true)) := by
  rw [← ones_eq_count]
  rfl

/-- In step with the course, the lamps leave course and lamps together with three one bits at most. -/
theorem State.lampsAndOffersOk.courseBits {s : State} (ok : s.lampsAndOffersOk) :
    (bitsOf (BitVec.ofNat 2 s.course.course.byte.toNat)).count true +
      (bitsOf (BitVec.ofNat 3 s.course.lampCount)).count true ≤ 3 := by
  obtain ⟨counting, resting, -⟩ := ok
  by_cases countdown : s.course.course = .countdown
  · obtain ⟨least, most, -⟩ := counting countdown
    rw [countdown]
    generalize s.course.lampCount = lamps at least most
    interval_cases lamps <;> decide
  · rw [(resting countdown).1]
    cases s.course.course <;> decide

/-- The check of the broadcast word, three bits wide, holds the number of its one bits. -/
theorem State.lampsAndOffersOk.broadcastOnes {s : State} (ok : s.lampsAndOffersOk) (frame : Fin 8) (pitOpen : Bool) :
    (broadcastFields frame s.course.course s.course.lampCount pitOpen).count true ≤ 7 := by
  have frameBits : (bitsOf (BitVec.ofNat 3 frame.val)).count true ≤ 3 :=
    List.count_le_length.trans_eq (bitsOf_length _)
  have flagBits : [pitOpen].count true ≤ 1 := List.count_le_length
  have between := ok.courseBits
  rw [broadcastFields, List.count_append, List.count_append, List.count_append]
  omega

/-! ## The parts of a frame, due (R131, R132, R134) -/

theorem syncBits_first : syncBits 0 = [false, false, false, false, true, true, false, false, true, false, true, false] := rfl

theorem syncBits_later {frame : Fin 8} (h : frame ≠ 0) :
    syncBits frame = [true, true, true, true, false, false, true, true, false, true, false, true] := if_neg h

section
variable {s : State} (run : s.seq.running = true)
include run

theorem execRailFrameStart_due (quiet : 184 ≤ s.seq.bitCounter.val) (due : (s.now - s.seq.nextFrame).toNat < 2 ^ 31) :
    execRailFrameStart s = .next (s.beginFrame (s.seq.frameCounter + 1) (addMs s.seq.nextFrame 5)) := by
  refine if_pos ?_
  rw [run, (partEnd_eq_200 _).2 quiet, reached_iff.2 due]
  rfl

theorem execBroadcastWord_due (sync : s.seq.bitCounter.val < 12) (time : s.reachesBit 12) : execBroadcastWord s =
    .next (s.sendPart 12 (broadcastBits s.seq.frameCounter s.course.course s.course.lampCount s.course.pitOpen) false) :=
  if_pos ((s.partDue_iff 12).2 ⟨run, (partEnd_eq_12 _).2 sync, time⟩)

theorem execQuietWindow_due (from174 : 174 ≤ s.seq.bitCounter.val) (to184 : s.seq.bitCounter.val < 184)
    (time : s.reachesBit 184) : execQuietWindow s = .next (s.sendPart 184 [] true) :=
  if_pos ((s.partDue_iff 184).2 ⟨run, (partEnd_eq_184 _).2 ⟨from174, to184⟩, time⟩)

theorem execCarWord_due {c : CarId} (before : c = 0 ∧ 12 ≤ s.seq.bitCounter.val ∧ s.seq.bitCounter.val < 24 ∨
      c ≠ 0 ∧ 14 + 10 * c.val ≤ s.seq.bitCounter.val ∧ s.seq.bitCounter.val < 24 + 10 * c.val)
    (time : s.reachesBit (24 + 10 * c.val)) : execCarWord c s =
      .next (s.sendPart (carPosition c) (carBits (s.carCommand c).1 (s.carCommand c).2 s.lane.intents[c].isSome) false) :=
  if_pos ((s.partDue_iff _).2 ⟨run, (partEnd_eq_car c _).2 before, time⟩)

end

/-- Settles O53: each part when it is due, and what the positions of each part read. -/
theorem railFrameIsSentInParts : Obligations.RailFrameIsSentInParts := by
  intro s
  dsimp only
  have spelt : bitsOf (BitVec.ofNat 3 s.seq.frameCounter.val) ++
      bitsOf (BitVec.ofNat 2 (match s.course.course with | .stop => 0 | .countdown => 1 | .green => 2 | .caution => 3)) ++
      bitsOf (BitVec.ofNat 3 s.course.lampCount) ++ [s.course.pitOpen] =
        broadcastFields s.seq.frameCounter s.course.course s.course.lampCount s.course.pitOpen := by
    unfold broadcastFields
    cases s.course.course <;> rfl
  refine ⟨fun run quiet due => ?frame, ⟨fun ok => ?check, fun run sync time => ?word⟩, fun run from174 to184 time => ?quiet,
    fun sync => Sequencer.sync_position sync, fun from12 to24 => Sequencer.broadcast_position from12 to24,
    fun _ begun inside => Sequencer.car_position begun inside, fun quiet => Sequencer.quiet_position quiet⟩
  case frame =>
    refine ⟨_, execRailFrameStart_due run quiet due, Fin.val_add .., fun first => ?_, syncBits_later, rfl⟩
    exact (congrArg syncBits first).trans syncBits_first
  case check => exact spelt ▸ ok.broadcastOnes ..
  case word =>
    refine (execBroadcastWord_due run sync time).trans ?_
    rw [broadcastBits_eq, ← spelt]
    rfl
  case quiet => exact ⟨execQuietWindow_due run from174 to184 time, rfl⟩

/-! ## Car words (R137, R138, R139) -/

/-- The parity bit makes the number of one bits even. -/
theorem evenParity_even (bits : List Bool) : (bits ++ [evenParity bits]).count true % 2 = 0 := by
  rw [evenParity, ones_eq_count, List.count_append, List.count_singleton]
  obtain even | odd := Nat.mod_two_eq_zero_or_one (bits.count true)
  · simp [even]
  · simp [odd, Nat.add_mod]

section
variable {s : State} {c : CarId}

/-- Outside GREEN and CAUTION, and for a car that is not BOUND, the word brakes (Table 7-3). -/
theorem State.carCommand_braked (h : s.course.course = .stop ∨ s.course.course = .countdown ∨
    ∀ a : Held, s.binding.bindings[c].held = some a → a.state ≠ .bound) : s.carCommand c = (0, true) := by
  unfold State.carCommand
  split
  · rfl
  · next races =>
    simp only [State.courseHolds, Bool.or_eq_true, beq_iff_eq, not_or] at races
    have unbound := (h.resolve_left races.1).resolve_left races.2
    split
    · rfl
    · next a held =>
      split
      · rfl
      · rfl
      · next bound => exact absurd bound (unbound a held)

/-- In GREEN and CAUTION the handset of a BOUND car drives it. -/
theorem State.carCommand_driven {a : Held} {h : HandsetId} {r : Handset} (ok : s.identitiesOk)
    (races : s.course.course = .green ∨ s.course.course = .caution) (held : s.binding.bindings[c].held = some a)
    (bound : a.state = .bound) (record : s.handsets.records[h] = some r) (its_own : r.identity = a.identity) :
    (r.link = .acquiring ∨ r.link = .stale → s.carCommand c = (0, false)) ∧
    (r.link = .live → s.carCommand c = (s.runningSpeed c r.throttle, s.runningSpeed c r.throttle == 0)) := by
  have moves : s.courseHolds = false := by obtain e | e := races <;> rw [State.courseHolds, e] <;> rfl
  have driver : s.driver a.identity = some (r.link, r.throttle) := by
    rw [State.driver, ← its_own, State.handsetOf_of_unique ok record, Option.bind_some, record]
    rfl
  unfold State.carCommand
  rw [moves, held]
  simp only [bound, driver]
  refine ⟨?_, fun live => by rw [live]; rfl⟩
  rintro (link | link) <;> rw [link] <;> rfl

end

/-- Settles O54: the word of a car by the command of its car, which Table 7-3 gives. -/
theorem carWordFollowsTheTable : Obligations.CarWordFollowsTheTable := by
  intro c s run before time
  refine ⟨(s.carCommand c).1, (s.carCommand c).2, _, _, carPosition c, rfl, execCarWord_due run before time,
    evenParity_even (bitsOf (s.carCommand c).1), evenParity_even [(s.carCommand c).2, s.lane.intents[c].isSome],
    fun braked => ?_, fun a h r ok races held bound record its_own => ?_⟩
  · rw [State.carCommand_braked braked]
    exact ⟨rfl, rfl⟩
  · obtain ⟨silent, live⟩ := State.carCommand_driven ok races held bound record its_own
    refine ⟨fun link => ?_, fun link => ?_⟩
    · rw [silent link]
      exact ⟨rfl, rfl⟩
    · rw [live link]
      obtain ⟨bounds, least⟩ := s.runningSpeed_spec c r.throttle
      exact ⟨bounds, least, beq_iff_eq⟩

/-! ## Steps (R131) -/

/-- Settles O1: the front command by the definition of a step, the empty queue by the two cases of a bit period. -/
theorem stepRunsTheFrontCommand : Obligations.StepRunsTheFrontCommand := by
  refine ⟨fun _ _ _ => rfl, fun s empty => ?_⟩
  have passes : step s = .next s.bitPeriod := by rw [step, empty]
  have counts_or_idles {b : Nat} (run : s.seq.running = true) (inside : ¬ beginsPart b) (time : s.reachesBit b) :
      ¬ (s.seq.running = false ∨ beginsPart b ∨ ¬ s.reachesBit b) :=
    not_or.2 ⟨Bool.not_eq_false _ ▸ run, not_or.2 ⟨inside, not_not.2 time⟩⟩
  rw [passes]
  obtain ⟨q, position, run, inside, time, counted⟩ | ⟨idles, same⟩ := s.bitPeriod_cases
  · rw [position] at inside time
    refine ⟨fun p _ next _ _ => ?_, fun idles => absurd idles (counts_or_idles run inside time)⟩
    rw [counted, Fin.ext (next.trans position.symm)]
  · rw [same]
    exact ⟨fun _ run _ inside time => absurd idles (counts_or_idles run inside time), fun _ => rfl⟩

end Sys2Proof.Machine
end

section
/-! Events that are not due, or find nothing to act on, change nothing (log 2, 3). -/

namespace Sys2Proof.Machine

theorem not_reached {now d : Time} (early : 2 ^ 31 ≤ (now - d).toNat) : ¬ reached now d = true :=
  fun due => absurd (reached_iff.1 due) (Nat.not_lt.2 early)

theorem not_dueAt {now : Time} {d : Option Time} (early : ∀ t : Time, d = some t → 2 ^ 31 ≤ (now - t).toNat) :
    ¬ dueAt now d = true := fun due => by
  obtain ⟨t, present, run⟩ := dueAt_iff.1 due
  exact not_reached (early t present) run

section
variable {s : State}

/-! ## The start-up (R148, R150) -/

theorem execRestore_undue (h : s.seq.starting = false ∨ s.seq.restored = true) : execRestore s = .next s :=
  if_neg <| by
    obtain off | restored := h
    · simp [off]
    · simp [restored]

theorem execRestoreEnd_undue
    (h : s.seq.starting = false ∨ s.seq.restored = false ∨ 2 ^ 31 ≤ (s.now - 4).toNat) : execRestoreEnd s = .next s :=
  if_neg <| by
    obtain off | unread | early := h
    · simp [off]
    · simp [unread]
    · exact fun due => not_reached early (Bool.and_eq_true_iff.1 due).2

/-! ## Handset records (R29, R30) -/

theorem execStaleExpiry_undue {h : HandsetId} (undue : ∀ r : Handset, s.handsets.records[h] = some r →
    r.link = .stale ∨ r.link = .lost ∨ 2 ^ 31 ≤ (s.now - (r.reportStamp + 60)).toNat) :
    execStaleExpiry h s = .next s := by
  unfold execStaleExpiry
  split
  · next r record =>
    refine if_neg ?_
    obtain link | link | early := undue r record
    · simp [link]
    · simp [link]
    · exact fun due => not_reached early (Bool.and_eq_true_iff.1 due).2
  · rfl

theorem execHandsetLostExpiry_undue {h : HandsetId} (undue : ∀ r : Handset, s.handsets.records[h] = some r →
    r.link ≠ .stale ∨ 2 ^ 31 ≤ (s.now - (r.stateStamp + 3000)).toNat) : execHandsetLostExpiry h s = .next s := by
  unfold execHandsetLostExpiry
  split
  · next r record =>
    refine if_neg ?_
    obtain link | early := undue r record
    · simp [link]
    · exact fun due => not_reached early (Bool.and_eq_true_iff.1 due).2
  · rfl

/-! ## Switches (R91, R102, R103, R104) -/

section
variable {w : SwitchId}

theorem execPitExitRecheck_undue (undue : (s.switch w).holds = [] ∨
    ∀ d : Time, (s.switch w).recheck = some d → 2 ^ 31 ≤ (s.now - d).toNat) : execPitExitRecheck w s = .next s := by
  unfold execPitExitRecheck
  split
  · next head rest d holds recheck =>
    obtain none_held | early := undue
    · exact absurd (holds.symm.trans none_held) (List.cons_ne_nil _ _)
    · exact if_neg (not_reached (early d recheck))
  · rfl
  · rfl

theorem execActuationDeadline_undue (undue : ∀ (d : Time) (cl : Claim), (s.switch w).mode = .pending d cl →
    2 ^ 31 ≤ (s.now - d).toNat) : execActuationDeadline w s = .next s := by
  unfold execActuationDeadline
  split
  · next d cl mode => exact if_neg (not_reached (undue d cl mode))
  all_goals rfl

theorem execHoldDeadline_undue (undue : ∀ (d : Time) (cl : Claim), (s.switch w).mode = .set d cl →
    2 ^ 31 ≤ (s.now - d).toNat) : execHoldDeadline w s = .next s := by
  unfold execHoldDeadline
  split
  · next d cl mode => exact if_neg (not_reached (undue d cl mode))
  all_goals rfl

theorem execRestoringActuationDeadline_undue (undue : ∀ d : Time, (s.switch w).mode = .restoring d →
    2 ^ 31 ≤ (s.now - d).toNat) : execRestoringActuationDeadline w s = .next s := by
  unfold execRestoringActuationDeadline
  split
  · next d mode => exact if_neg (not_reached (undue d mode))
  all_goals rfl

end

/-! ## Cars (R50, R75, R84, R107) -/

section
variable {c : CarId}

theorem execIntentExpiry_undue (undue : ∀ i : Intent, s.lane.intents[c] = some i → 2 ^ 31 ≤ (s.now - i.expiry).toNat) :
    execIntentExpiry c s = .next s := by
  refine if_neg (not_dueAt fun d expiry => ?_)
  obtain ⟨i, held, rfl⟩ := Option.map_eq_some_iff.1 expiry
  exact undue i held

theorem execConflictCapEnd_undue
    (undue : ∀ cap : ConflictCap, s.lane.conflictCaps[c] = some cap → 2 ^ 31 ≤ (s.now - cap.ends).toNat) :
    execConflictCapEnd c s = .next s := by
  refine if_neg (not_dueAt fun d expiry => ?_)
  obtain ⟨cap, held, rfl⟩ := Option.map_eq_some_iff.1 expiry
  exact undue cap held

theorem execStall_undue (undue : ∀ (pl : Placed) (d : Time), s.tracker.cars[c].placed = some pl →
    s.tracker.cars[c].stallDeadline = some d → pl.stalled = true ∨ 2 ^ 31 ≤ (s.now - d).toNat) :
    execStall c s = .next s := by
  unfold execStall
  split
  · next pl placed =>
    refine if_neg fun due => ?_
    obtain ⟨moving, due⟩ := Bool.and_eq_true_iff.1 due
    exact not_dueAt (fun d deadline => (undue pl d placed deadline).resolve_left (by simpa using moving)) due
  · rfl

theorem execOfferExpiry_undue
    (undue : ∀ o ∈ s.binding.offers, o.car = c → 2 ^ 31 ≤ (s.now - (o.stamp + 4000)).toNat) :
    execOfferExpiry c s = .next s := by
  have kept : (s.binding.offers.filter fun o => !(o.car == c && reached s.now (addMs o.stamp 4000))) = s.binding.offers := by
    refine List.filter_eq_self.2 fun o offered => ?_
    by_cases its_own : o.car = c
    · have early : reached s.now (addMs o.stamp 4000) = false :=
        Bool.eq_false_iff.2 (not_reached (undue o offered its_own))
      rw [early, Bool.and_false]
      rfl
    · rw [beq_false_of_ne its_own]
      rfl
  exact congrArg (fun offers => Host.Outcome.next (s.putOffers offers)) kept

end

/-! ## The window and the lamps (R47, R117) -/

theorem execPairingWindowExpiry_undue (undue : ∀ d : Time, s.binding.window = some d → 2 ^ 31 ≤ (s.now - d).toNat) :
    execPairingWindowExpiry s = .next s := if_neg (not_dueAt undue)

theorem execLampExpiry_undue (undue : s.course.course ≠ .countdown ∨
    ∀ d : Time, s.course.nextLamp = some d → 2 ^ 31 ≤ (s.now - d).toNat) : execLampExpiry s = .next s := by
  unfold execLampExpiry
  split
  · next d countdown lit =>
    exact if_neg (not_reached (undue.resolve_left (not_not.2 countdown) d lit))
  · rfl

/-! ## The Bind Store (R144, R145) -/

theorem execWriterStepEnd_undue (undue : ∀ x : Commit, s.store.writer = .invalidating x →
    2 ^ 31 ≤ (s.now - x.stepEnd).toNat) : execWriterStepEnd s = .next s := by
  unfold execWriterStepEnd
  split
  · next x step => exact if_neg (not_reached (undue x step))
  all_goals rfl

theorem execCommitCompletion_undue (undue : ∀ x : Commit, s.store.writer = .writing x →
    2 ^ 31 ≤ (s.now - x.stepEnd).toNat) : execCommitCompletion s = .next s := by
  unfold execCommitCompletion
  split
  · next x step => exact if_neg (not_reached (undue x step))
  all_goals rfl

theorem execStweFall_undue (low : s.store.stwe = false) : execStweFall s = .next s := if_neg (Bool.eq_false_iff.1 low)

/-! ## The parts of the rail frame (R131) -/

theorem execRailFrameStart_undue
    (undue : s.seq.running = false ∨ s.seq.bitCounter.val < 184 ∨ 2 ^ 31 ≤ (s.now - s.seq.nextFrame).toNat) :
    execRailFrameStart s = .next s := by
  refine if_neg fun due => ?_
  simp only [Bool.and_eq_true, beq_iff_eq, partEnd_eq_200] at due
  obtain ⟨⟨run, quiet⟩, time⟩ := due
  obtain still | early | early := undue
  · exact absurd (run.symm.trans still) (by decide)
  · exact absurd quiet (Nat.not_le.2 early)
  · exact not_reached early time

/-- A part is not due while no frame is being sent, outside the part before it, and before its millisecond. -/
theorem State.partDue_undue {p : Nat} {before : Prop} (place : partEnd s.seq.bitCounter.val = p ↔ before)
    (undue : s.seq.running = false ∨ ¬ before ∨ ¬ s.reachesBit p) : ¬ s.seq.partDue p = true := by
  rw [State.partDue_iff, place]
  rintro ⟨run, inside, time⟩
  obtain still | outside | early := undue
  · exact absurd (run.symm.trans still) (by decide)
  · exact outside inside
  · exact early time

theorem execBroadcastWord_undue (undue : s.seq.running = false ∨ 12 ≤ s.seq.bitCounter.val ∨ ¬ s.reachesBit 12) :
    execBroadcastWord s = .next s :=
  if_neg (State.partDue_undue (partEnd_eq_12 _) (undue.imp_right (Or.imp_left Nat.not_lt.2)))

theorem execCarWord_undue {c : CarId} (undue : s.seq.running = false ∨
    (c = 0 ∧ ¬ (12 ≤ s.seq.bitCounter.val ∧ s.seq.bitCounter.val < 24)) ∨
    (c ≠ 0 ∧ ¬ (14 + 10 * c.val ≤ s.seq.bitCounter.val ∧ s.seq.bitCounter.val < 24 + 10 * c.val)) ∨
    ¬ s.reachesBit (24 + 10 * c.val)) : execCarWord c s = .next s := by
  refine if_neg (State.partDue_undue (partEnd_eq_car c _) ?_)
  obtain still | ⟨first, outside⟩ | ⟨later, outside⟩ | early := undue
  · exact .inl still
  · exact .inr (.inl (not_or.2 ⟨fun inside => outside inside.2, fun inside => inside.1 first⟩))
  · exact .inr (.inl (not_or.2 ⟨fun inside => later inside.1, fun inside => outside inside.2⟩))
  · exact .inr (.inr early)

theorem execQuietWindow_undue (undue : s.seq.running = false ∨
    ¬ (174 ≤ s.seq.bitCounter.val ∧ s.seq.bitCounter.val < 184) ∨ ¬ s.reachesBit 184) : execQuietWindow s = .next s :=
  if_neg (State.partDue_undue (partEnd_eq_184 _) undue)

end

/-- Settles O9: each event in turn, when it is not due. -/
theorem eventsThatAreNotDueChangeNothing : Obligations.EventsThatAreNotDueChangeNothing := fun _ =>
  ⟨execRestore_undue, execRestoreEnd_undue, fun _ => execStaleExpiry_undue, fun _ => execHandsetLostExpiry_undue,
    fun _ => execPitExitRecheck_undue, fun _ => execActuationDeadline_undue, fun _ => execHoldDeadline_undue,
    fun _ => execRestoringActuationDeadline_undue, fun _ => execIntentExpiry_undue, fun _ => execConflictCapEnd_undue,
    fun _ => execStall_undue, fun _ => execOfferExpiry_undue, execPairingWindowExpiry_undue, execLampExpiry_undue,
    execWriterStepEnd_undue, execCommitCompletion_undue, execStweFall_undue, execRailFrameStart_undue,
    execBroadcastWord_undue, fun _ => execCarWord_undue, execQuietWindow_undue⟩

end Sys2Proof.Machine
end

section
/-! What a hard reset leaves (R130, R133, R147), what moves the track time (R130), and how the start-up ends (R150). -/

namespace Sys2Proof.Machine

/-! ## Hard reset (R130, R133, R147) -/

/-- Settles O3: block by block, each bank filled with its reset record, each port with its transaction discarded. -/
theorem hardResetSetsEveryBlock : Obligations.HardResetSetsEveryBlock := by
  intro rcs s
  have filled {α : Type} {n : Nat} {a : α} (i : Fin n) : (Vector.replicate n a)[i] = a := Vector.getElem_replicate i.isLt
  refine ⟨_, rfl, rfl, rfl, rfl, rfl, ?zones, ?switches, ?sensors, ?records, rfl, ?bindings, ?marshals, rfl, rfl, ?cars,
    ?lists, ?runStates, ?intentsAndCaps, rfl, rfl, rfl, rfl, ?locks, rfl, rfl, fun p => ?ports⟩
  case ports =>
    dsimp only
    rw [mapAll_get]
    exact ⟨rfl, rfl, rfl, rfl, rfl, rfl, rfl, rfl, rfl, rfl, rfl, rfl, rfl⟩
  case intentsAndCaps => exact fun c => ⟨filled c, filled c, filled c, filled c⟩
  case zones | switches | sensors | records | bindings | marshals | cars | lists | runStates | locks =>
    exact filled

/-! ## Track time (R130) -/

/-- Of the commands that move the Frame Sequencer, the tick and the hard reset alone move the track time. -/
theorem exec_keepsTime {c : Instr} (noTick : c ≠ .trackTimeTick) (noPulse : ∀ rcs : BitVec 4, c ≠ .hardReset rcs)
    (s : State) : ∃ t : State, exec c s = .next t ∧ t.now = s.now := by
  have due {event : Prop} [Decidable event] {u : State} (same : u.now = s.now) :
      ∃ t : State, (if event then .next u else .next s : Host.Outcome State Fault Refusal) = .next t ∧ t.now = s.now := by
    split
    · exact ⟨_, rfl, same⟩
    · exact ⟨_, rfl, rfl⟩
  cases moves : movesSequencer c with
  | false =>
    obtain ⟨t, e, orderly⟩ := exec_orderly moves s
    exact ⟨t, e, State.now_eq orderly.seq⟩
  | true =>
    cases c
    case hardReset rcs => exact absurd rfl (noPulse rcs)
    case trackTimeTick => exact absurd rfl noTick
    case restore =>
      have rows := State.now_eq s.restoreRows_orderly.seq
      change ∃ t : State, execRestore s = .next t ∧ _
      unfold execRestore
      dsimp only
      generalize s.restoreRows = u at rows
      exact due rows
    case restoreEnd =>
      have chosen := State.now_eq (State.chooseCommit_orderly (s.started.beginFrame 0 (addMs s.seq.nextFrame 5))).seq
      exact due chosen
    case railFrameStart | broadcastWord | carWord | quietWindow => exact due rfl
    all_goals cases moves

/-- Settles O5: the tick and the hard reset by their meanings, every other command by what it keeps. -/
theorem trackTimeCounts : Obligations.TrackTimeCounts := by
  refine ⟨fun _ => rfl, fun _ s t pulsed => ?_, fun c s t noTick noPulse moved => ?_⟩
  · cases pulsed
    rfl
  · obtain ⟨u, e, same⟩ := exec_keepsTime noTick noPulse s
    cases e.symm.trans moved
    exact same

/-! ## The end of the start-up (R131, R143, R150) -/

theorem execRestoreEnd_due {s : State} (starting : s.seq.starting = true) (restored : s.seq.restored = true)
    (due : (s.now - 4).toNat < 2 ^ 31) :
    execRestoreEnd s = .next (s.started.beginFrame 0 (addMs s.seq.nextFrame 5)).chooseCommit := by
  refine if_pos ?_
  rw [starting, restored, reached_iff.2 due]
  rfl

/-- Settles O8: the start-up ends in the state in which the first frame has begun, and there the writer chooses. -/
theorem startUpEndsAtTrackTimeFour : Obligations.StartUpEndsAtTrackTimeFour :=
  fun _ starting restored due => ⟨_, execRestoreEnd_due starting restored due, rfl⟩

end Sys2Proof.Machine
end

section
/-! Requests during the start-up are answered STARTING (R150). -/

namespace Sys2Proof.Machine

-- One after the other, the proofs need no thread each.
set_option Elab.async false

/-- The rise of SELn and then the refusal STARTING: the port's flag and counts are left (R150). -/
theorem State.endTransaction_refuse_starting (s : State) (p : PortId) :
    (s.endTransaction p).refuse p .starting =
      s.modPort p fun pt => { pt with selLow := false, shiftFrame := [], reply := .refused .starting } := by
  simp [State.endTransaction, State.refuse, State.reply, State.modPort]

section
variable {s : State} (on : s.seq.starting = true)
include on

/-- A frame of any bytes is refused before its tests. -/
theorem State.judgeFrame_starting (p : PortId) (bytes : List Byte) :
    s.judgeFrame p bytes = s.refuse p .starting := if_pos on

/-- PUT meets the start-up's test before the test of its length. -/
theorem exec_put_starting {p : PortId} (kept : (s.ports[p]).discarded = false) (values : List Byte) :
    exec (.put p values) s = .next ((s.endTransaction p).refuse p .starting) := by
  refine congrArg Host.Outcome.next ((State.riseOfSel_kept p _ kept).trans ?_)
  exact if_pos on

theorem exec_requestOf_starting {c : Instr} {p : PortId} {code : Byte} {payload : List Byte}
    (request : requestOf c = some (p, code, payload)) (kept : (s.ports[p]).discarded = false) :
    exec c s = .next ((s.endTransaction p).refuse p .starting) := by
  rw [State.endTransaction_refuse_starting]
  cases c <;> simp only [requestOf, Option.some.injEq, Prod.mk.injEq, reduceCtorEq] at request <;>
    obtain ⟨rfl, -, -⟩ := request
  case put values => rw [exec_put_starting on kept, State.endTransaction_refuse_starting]
  all_goals exact congrArg Host.Outcome.next (State.request_starting _ _ on kept)

end

/-- Eight bits or more gather to at least one byte. -/
theorem gatherBytes_ne_nil {bits : List Bool} (whole : 8 ≤ bits.length) : gatherBytes bits ≠ [] := by
  match bits, whole with
  | _ :: _ :: _ :: _ :: _ :: _ :: _ :: _ :: _, _ => exact List.cons_ne_nil _ _

theorem exec_requestFrame_starting {s : State} (on : s.seq.starting = true) {p : PortId}
    (kept : (s.ports[p]).discarded = false) {sdi : List Bool} (whole : 8 ≤ sdi.length) :
    exec (.requestFrame p sdi) s = .next ((s.endTransaction p).refuse p .starting) := by
  refine congrArg Host.Outcome.next ((State.riseOfSel_kept p _ kept).trans ?_)
  have gathered := gatherBytes_ne_nil whole
  cases bytes : gatherBytes sdi with
  | nil => exact absurd bytes gathered
  | cons b rest => exact State.judgeFrame_starting (s := s.endTransaction p) on p (b :: rest)

/-- Settles O6: a request row and a frame with a whole byte are both refused before any other test. -/
theorem startUpRefusesEveryRequest : Obligations.StartUpRefusesEveryRequest := by
  intro s p on kept
  rw [← State.endTransaction_refuse_starting]
  exact ⟨fun _ _ _ request => exec_requestOf_starting on request kept,
    fun _ whole => exec_requestFrame_starting on kept whole⟩

end Sys2Proof.Machine
end

section
/-! The Bind Store's writer: how a commit starts (R143, R146), runs to its completion (R144), and is cut (R145). -/

namespace Sys2Proof.Machine

-- One after the other, the proofs need no thread each.
set_option Elab.async false

/-! ## The start of a commit (R143, R144, R146) -/

/-- A commit begins with the snapshot of its row's entry. -/
theorem State.startCommit_eq_begun (s : State) (r : RowId) (origin : Origin) :
    s.startCommit r origin = s.begun r (s.snapshot r origin) := rfl

/-- The row of a commit that has begun holds no content. -/
theorem State.begun_row (s : State) (r : RowId) (x : Commit) : (s.begun r x).store.rows[r] = voidRow :=
  modAt_get_self s.store.rows r _

theorem isMarshalRow_iff {r : RowId} : isMarshalRow r = true ↔ 16 ≤ r.val := by simp [isMarshalRow]

theorem isMarshalRow_of_lt {r : RowId} (car : r.val < 16) : isMarshalRow r = false :=
  Bool.eq_false_iff.2 fun h => Nat.not_le.2 car (isMarshalRow_iff.1 h)

/-! ### STORE SAVE, test by test (R146) -/

section
variable {s : State} {p : PortId} {n : Byte} {r : RowId}

section
variable (takes : s.takes p) (rights : (s.ports[p]).raceControl = true)
include takes rights

theorem exec_storeSave_outside (outside : numOf 20 n = none) :
    exec (.storeSave p n) s = .next (s.answer p (.refused (.range 1))) := by
  refine congrArg Host.Outcome.next ((State.request_reserved _ takes rights).trans ?_)
  rw [outside, ← State.taken_refuse]

/-- STORE SAVE of a row, its number in range. -/
theorem exec_storeSave_row (named : numOf 20 n = some r) :
    exec (.storeSave p n) s = .next
      (if (isMarshalRow r && !s.store.stwe) = true then s.answer p (.refused .storeProtected)
      else if s.store.writer ≠ .idle then s.answer p (.refused .storeBusy)
      else (s.begun r (s.snapshot r (.save p))).answer p (.done [])) := by
  refine congrArg Host.Outcome.next ((State.request_reserved _ takes rights).trans ?_)
  rw [named, ← State.taken_refuse, ← State.taken_refuse, ← State.taken_done]
  rfl

end

/-! ### The writer's choice (R143) -/

/-- The writer chooses with the writer IDLE, auto-save ON and the start-up over. -/
def State.mayChoose (s : State) : Prop :=
  s.store.writer = .idle ∧ s.course.settings.autoSave = true ∧ s.seq.starting = false

theorem State.autoChoice_of_mayChoose (ready : s.mayChoose) : s.autoChoice = firstIdx 20 s.eligible := by
  obtain ⟨idle, auto, running⟩ := ready
  exact if_pos ⟨idle, auto, Bool.eq_false_iff.1 running⟩

theorem State.autoChoice_of_not_mayChoose (unready : ¬ s.mayChoose) : s.autoChoice = none :=
  if_neg fun ⟨idle, auto, running⟩ => unready ⟨idle, auto, Bool.eq_false_iff.2 running⟩

theorem State.chooseCommit_lowest (ready : s.mayChoose) (may : s.mayCommit r)
    (lowest : ∀ k : RowId, k < r → ¬ s.mayCommit k) : s.chooseCommit = s.begun r (s.snapshot r .auto) := by
  have choice : s.autoChoice = some r := by
    rw [State.autoChoice_of_mayChoose ready, firstIdx_eq_some]
    exact ⟨(s.eligible_iff r).2 may, fun k before =>
      Bool.eq_false_iff.2 fun eligible => lowest k before ((s.eligible_iff k).1 eligible)⟩
  rw [State.chooseCommit, choice, Option.elim_some, State.startCommit_eq_begun]

theorem State.chooseCommit_nothing (nothing : ¬ s.mayChoose ∨ ∀ k : RowId, ¬ s.mayCommit k) : s.chooseCommit = s := by
  have choice : s.autoChoice = none := by
    by_cases ready : s.mayChoose
    · have clean := nothing.resolve_left (not_not_intro ready)
      rw [State.autoChoice_of_mayChoose ready, firstIdx_eq_none]
      exact fun k => Bool.eq_false_iff.2 fun eligible => clean k ((s.eligible_iff k).1 eligible)
    · exact State.autoChoice_of_not_mayChoose ready
  rw [State.chooseCommit, choice, Option.elim_none]

end

/-- Settles O51: STORE SAVE by its tests in order, the writer's choice by the lowest row that is eligible. -/
theorem commitsStartBySaveOrChoice : Obligations.CommitsStartBySaveOrChoice := by
  intro p n r s
  refine ⟨fun takes rights => ⟨fun outside => exec_storeSave_outside takes rights (numOf_eq_none.2 outside), ?save⟩,
    ⟨fun ready may lowest => ⟨_, s.snapshot_spec r .auto, ?chosen⟩, fun nothing => ?idles⟩, fun x => ⟨?invalid, ?void⟩⟩
  case save =>
    rintro rfl
    have save := exec_storeSave_row takes rights (numOf_numByte (by decide) r)
    refine ⟨fun marshal low => ?shielded, fun free => ?_⟩
    case shielded => exact save.trans (congrArg _ (if_pos (by simp [isMarshalRow_iff.2 marshal, low])))
    have passes : ¬ (isMarshalRow r && !s.store.stwe) = true := by
      obtain car | high := free
      · simp [isMarshalRow_of_lt car]
      · simp [high]
    rw [if_neg passes] at save
    exact ⟨fun busy => save.trans (congrArg _ (if_pos busy)),
      fun idle => ⟨_, s.snapshot_spec r (.save p), save.trans (congrArg _ (if_neg (not_not_intro idle)))⟩⟩
  case chosen => exact congrArg Host.Outcome.next (State.chooseCommit_lowest ready may lowest)
  case idles => exact congrArg Host.Outcome.next (State.chooseCommit_nothing nothing)
  case invalid => exact State.validRow_void _ r (s.begun_row r x)
  case void =>
    intro content
    rw [s.begun_row r x]
    exact voidRow_check content

/-! ## The steps of a commit (R144) -/

theorem rowOfCar_ne_marshal (c : CarId) (m : MarshalId) : (rowOfCar c).val ≠ 16 + m.val :=
  Nat.ne_of_lt (Nat.lt_of_lt_of_le c.isLt (Nat.le_add_right 16 m.val))

/-- The revision of the commit's entry is that of the snapshot exactly when it has not moved. -/
theorem State.entryRevision_eq_iff (s : State) (x : Commit) : s.entryRevision x.row = x.revision ↔ s.unmoved x := by
  unfold State.unmoved State.entryRevision
  obtain ⟨c, row⟩ | ⟨m, row⟩ := row_cases x.row <;> rw [row]
  · rw [entryOfRow_car]
    refine ⟨fun same => ⟨fun k hk => ?_, fun m hm => ?_⟩, fun same => same.1 c rfl⟩
    · rw [← (Fin.ext hk : c = k)]
      exact same
    · exact absurd hm (rowOfCar_ne_marshal c m)
  · rw [entryOfRow_marshal]
    refine ⟨fun same => ⟨fun c hc => ?_, fun k hk => ?_⟩, fun same => same.2 m rfl⟩
    · exact absurd hc.symm (rowOfCar_ne_marshal c m)
    · rw [← (Fin.ext (Nat.add_left_cancel hk) : m = k)]
      exact same

/-- The row written with the snapshot and the writer IDLE: what a completion leaves, but for the mark and the notice. -/
def State.written (s : State) (x : Commit) : State := (s.putRow x.row (rowOf x.content)).putWriter .idle

theorem State.written_row (s : State) (x : Commit) : (s.written x).store.rows[x.row] = rowOf x.content :=
  modAt_get_self s.store.rows x.row _

section
variable {s : State} {x : Commit}

theorem State.completeCommit_unmoved (same : s.unmoved x) :
    s.completeCommit x = ({ s.written x with binding := s.marked x.row .clean }).tellStored x .clean := by
  have unchanged : (s.entryRevision x.row == x.revision) = true := beq_iff_eq.2 ((s.entryRevision_eq_iff x).2 same)
  unfold State.completeCommit
  rw [unchanged]
  dsimp only
  rw [if_pos rfl, if_pos rfl, State.setMark_eq]
  rfl

theorem State.completeCommit_moved (moved : ¬ s.unmoved x) :
    s.completeCommit x = (s.written x).tellStored x .dirty := by
  have changed : (s.entryRevision x.row == x.revision) = false :=
    beq_eq_false_iff_ne.2 fun same => moved ((s.entryRevision_eq_iff x).1 same)
  unfold State.completeCommit
  rw [changed]
  rfl

theorem execWriterStepEnd_due (invalidating : s.store.writer = .invalidating x)
    (due : (s.now - x.stepEnd).toNat < 2 ^ 31) :
    execWriterStepEnd s = .next (s.putWriter (.writing { x with stepEnd := x.stepEnd + 3 })) := by
  unfold execWriterStepEnd
  rw [invalidating]
  exact if_pos (reached_iff.2 due)

theorem execCommitCompletion_due (writing : s.store.writer = .writing x) (due : (s.now - x.stepEnd).toNat < 2 ^ 31) :
    execCommitCompletion s = .next (s.completeCommit x) := by
  unfold execCommitCompletion
  rw [writing]
  exact if_pos (reached_iff.2 due)

/-! ## The fall of STWE (R145) -/

/-- The state with STWE low. -/
def State.stweLow (s : State) : State := { s with store := { s.store with stwe := false } }

theorem execStweFall_high (high : s.store.stwe = true) :
    execStweFall s = .next (s.store.writer.commit.elim s.stweLow s.stweLow.cutCommit) := if_pos high

theorem State.cutCommit_car (car : x.row.val < 16) : s.cutCommit x = s :=
  if_neg (Bool.eq_false_iff.1 (isMarshalRow_of_lt car))

theorem State.cutCommit_marshal (marshal : 16 ≤ x.row.val) :
    s.cutCommit x = ({ s.putWriter .idle with binding := s.marked x.row .dirty }).tellStored x .cut := by
  refine (if_pos (isMarshalRow_iff.2 marshal)).trans ?_
  rw [State.setMark_eq]
  rfl

theorem Writer.commit_eq_some {w : Writer} (holds : w = .invalidating x ∨ w = .writing x) : w.commit = some x := by
  obtain rfl | rfl := holds <;> rfl

end

/-- Settles O52: the two steps when they are due, the completion by whether the revision has moved, and the fall of STWE
by the writer's commit and its row. -/
theorem commitsRunAndAreCut : Obligations.CommitsRunAndAreCut := by
  intro x s
  refine ⟨execWriterStepEnd_due, fun writing due => ⟨⟨?content, ?check, fun ok => ?valid⟩, fun same => ?clean,
    fun moved => ?dirty⟩, fun high => ⟨fun idle => ?idle, fun holds => ?held⟩, rfl⟩
  case content => exact congrArg StoreRow.content (s.written_row x)
  case check => exact (congrArg rowCheck (s.written_row x)).trans (rowOf_check x.content)
  case valid => exact State.validRow_rowOf _ x.row x.content (s.written_row x) ok
  case clean => exact (execCommitCompletion_due writing due).trans (congrArg _ (State.completeCommit_unmoved same))
  case dirty => exact (execCommitCompletion_due writing due).trans (congrArg _ (State.completeCommit_moved moved))
  case idle =>
    have fall := execStweFall_high high
    rw [idle] at fall
    exact fall
  case held =>
    have fall := execStweFall_high high
    rw [Writer.commit_eq_some holds, Option.elim_some] at fall
    exact ⟨fun car => fall.trans (congrArg _ (State.cutCommit_car car)),
      fun marshal => fall.trans (congrArg _ (State.cutCommit_marshal marshal))⟩

end Sys2Proof.Machine
end

section
/-! The restore: rows 17 to 20 and then 1 to 16, each into its entry or with its alert (R142, R148, R149). -/

namespace Sys2Proof.Machine

-- One after the other, the proofs need no thread each.
set_option Elab.async false

/-! ## Rows and entries -/

/-- The row of an entry. -/
def rowOfEntry : Holder → RowId
  | .car c => rowOfCar c
  | .marshal m => rowOfMarshal m

theorem entryOfRow_rowOfEntry (h : Holder) : entryOfRow (rowOfEntry h) = h := by
  cases h with
  | car c => exact entryOfRow_car c
  | marshal m => exact entryOfRow_marshal m

theorem rowOfEntry_entryOfRow (r : RowId) : rowOfEntry (entryOfRow r) = r := by
  obtain ⟨c, rfl⟩ | ⟨m, rfl⟩ := row_cases r
  · rw [entryOfRow_car]; rfl
  · rw [entryOfRow_marshal]; rfl

theorem rowOfCar_injective {c k : CarId} (same : rowOfCar c = rowOfCar k) : c = k :=
  Fin.ext (show (rowOfCar c).val = (rowOfCar k).val from congrArg Fin.val same)

theorem rowOfMarshal_injective {m k : MarshalId} (same : rowOfMarshal m = rowOfMarshal k) : m = k :=
  Fin.ext (Nat.add_left_cancel (congrArg Fin.val same))

theorem restoreOrder_nodup : restoreOrder.Nodup := by decide

theorem mem_restoreOrder (r : RowId) : r ∈ restoreOrder := by
  obtain ⟨c, rfl⟩ | ⟨m, rfl⟩ := row_cases r
  · exact List.mem_append_right _ (List.mem_map_of_mem (List.mem_finRange c))
  · exact List.mem_append_left _ (List.mem_map_of_mem (List.mem_finRange m))

/-- The rows before row r are those read before it. -/
theorem restoreOrder_takeWhile {done rest : List RowId} {r : RowId} (order : restoreOrder = done ++ r :: rest) :
    restoreOrder.takeWhile (· ≠ r) = done := by
  have fresh : ∀ q ∈ done, q ≠ r := by
    have nodup := restoreOrder_nodup
    rw [order] at nodup
    rintro q before rfl
    exact List.disjoint_of_nodup_append nodup before List.mem_cons_self
  rw [order, List.takeWhile_append_of_pos (by simpa using fresh), List.takeWhile_cons_of_neg (by simp), List.append_nil]

/-! ## The identity that an entry holds -/

/-- The identity that a car or a marshal entry holds. -/
def State.heldBy (s : State) : Holder → Option Ident
  | .car c => s.binding.bindings[c].held.map (·.identity)
  | .marshal m => s.binding.marshals[m].identity

/-- The entry found is one that holds the identity. -/
theorem State.holderOfIdentity_spec {s : State} {i : Ident} {h : Holder} (found : s.holderOfIdentity i = some h) :
    s.heldBy h = some i := by
  unfold State.holderOfIdentity at found
  obtain found | ⟨-, found⟩ := Option.or_eq_some_iff.1 found <;> obtain ⟨k, e, rfl⟩ := Option.map_eq_some_iff.1 found
  · exact State.marshalOf_spec e
  · obtain ⟨a, held, rfl⟩ := State.carOf_spec e
    exact congrArg (Option.map _) held

theorem State.holderOfIdentity_eq_none {s : State} {i : Ident} :
    s.holderOfIdentity i = none ↔ ∀ h : Holder, s.heldBy h ≠ some i := by
  constructor
  · intro none h holds
    obtain ⟨unlisted, unheld⟩ := Option.or_eq_none_iff.1 none
    cases h with
    | marshal m => exact State.marshalOf_eq_none.1 (Option.map_eq_none_iff.1 unlisted) m holds
    | car c =>
      obtain ⟨a, held, same⟩ := Option.map_eq_some_iff.1 holds
      exact State.carOf_eq_none.1 (Option.map_eq_none_iff.1 unheld) c a held same
  · intro nobody
    cases found : s.holderOfIdentity i with
    | none => rfl
    | some h => exact absurd (State.holderOfIdentity_spec found) (nobody h)

/-- When just one entry holds an identity, it is the one found. -/
theorem State.holderOfIdentity_eq {s : State} {i : Ident} {h : Holder} (holds : s.heldBy h = some i)
    (unique : ∀ k : Holder, s.heldBy k = some i → k = h) : s.holderOfIdentity i = some h := by
  cases found : s.holderOfIdentity i with
  | none => exact absurd holds (State.holderOfIdentity_eq_none.1 found h)
  | some k => rw [unique k (State.holderOfIdentity_spec found)]

/-! ## What each row leaves in its entry -/

/-- Row r is VALID and holds the identity. -/
def State.rowHolds (s : State) (i : Ident) (r : RowId) : Bool := (s.validRow r).any (storedIdentity · == some i)

/-- An identity is restored from the first row read that holds it. -/
theorem State.restoredFrom_eq {s : State} {done rest : List RowId} {r : RowId}
    (order : restoreOrder = done ++ r :: rest) (i : Ident) : s.restoredFrom r i = done.find? (s.rowHolds i) := by
  unfold State.restoredFrom
  rw [restoreOrder_takeWhile order]
  rfl

/-- The content that row r leaves in its entry: its own, or the delivered one when it is lost or contested. -/
def State.restoredContent (s : State) (r : RowId) : StoreContent :=
  if s.alertOfRow r = none then (s.validRow r).getD (deliveredContent r) else deliveredContent r

/-- The mark that row r leaves in its entry. -/
def State.restoredMark (s : State) (r : RowId) : Mark := if s.alertOfRow r = none then .clean else .dirty

section
variable {s : State} {r : RowId}

theorem State.restoredContent_own {content : StoreContent} (valid : s.validRow r = some content)
    (restores : s.alertOfRow r = none) : s.restoredContent r = content := by
  rw [State.restoredContent, if_pos restores, valid, Option.getD_some]

theorem State.restoredContent_delivered (alert : s.alertOfRow r ≠ none) : s.restoredContent r = deliveredContent r :=
  if_neg alert

theorem State.restoredMark_clean (restores : s.alertOfRow r = none) : s.restoredMark r = .clean := if_pos restores

theorem State.restoredMark_dirty (alert : s.alertOfRow r ≠ none) : s.restoredMark r = .dirty := if_neg alert

end

/-- A binding record with a row's content and a mark; the revision stays. -/
def Binding.restore (b : Binding) (content : StoreContent) (mark : Mark) : Binding :=
  { b with
    held := restoredHeld (storedIdentity content), ceiling := (storedLimits content).1,
    permit := (storedLimits content).2, mark := mark }

/-- A marshal entry with a row's content and a mark; the revision stays. -/
def MarshalEntry.restore (e : MarshalEntry) (content : StoreContent) (mark : Mark) : MarshalEntry :=
  { e with identity := storedIdentity content, mark := mark }

/-- A row's content and a mark put into a car's binding record. -/
def State.restoreBinding (s : State) (c : CarId) (content : StoreContent) (mark : Mark) : State :=
  { s with binding := { s.binding with bindings := modAt s.binding.bindings c (·.restore content mark) } }

/-- A row's content and a mark put into a marshal entry. -/
def State.restoreEntry (s : State) (m : MarshalId) (content : StoreContent) (mark : Mark) : State :=
  { s with binding := { s.binding with marshals := modAt s.binding.marshals m (·.restore content mark) } }

/-- Row r read into its entry. -/
def State.restoreRow (s : State) (r : RowId) : State :=
  match entryOfRow r with
  | .car c => s.restoreCar c
  | .marshal m => s.restoreMarshal m

theorem State.restoreRows_eq (s : State) : s.restoreRows = restoreOrder.foldl State.restoreRow s := by
  have marshals : (fun (u : State) (m : MarshalId) => u.restoreRow (rowOfMarshal m)) = State.restoreMarshal := by
    funext u m
    unfold State.restoreRow
    rw [entryOfRow_marshal]
  have cars : (fun (u : State) (c : CarId) => u.restoreRow (rowOfCar c)) = State.restoreCar := by
    funext u c
    unfold State.restoreRow
    rw [entryOfRow_car]
  rw [restoreOrder, List.foldl_append, List.foldl_map, List.foldl_map, marshals, cars]
  rfl

theorem storedIdentity_delivered (r : RowId) : storedIdentity (deliveredContent r) = none := by
  unfold deliveredContent
  split <;> rfl

theorem State.alertOfRow_invalid {s : State} {r : RowId} (invalid : s.validRow r = none) :
    s.alertOfRow r = some (.storeRowLost r) := by
  unfold State.alertOfRow
  rw [invalid]

theorem State.alertOfRow_valid {s : State} {r : RowId} {content : StoreContent} (valid : s.validRow r = some content) :
    s.alertOfRow r = (storedIdentity content).bind fun i =>
      (s.restoredFrom r i).map fun q => .restoreDuplicate r i (entryOfRow q) := by
  unfold State.alertOfRow
  rw [valid]

theorem State.rowHolds_iff {s : State} {i : Ident} {r : RowId} :
    s.rowHolds i r = true ↔
      ∃ content : StoreContent, s.validRow r = some content ∧ storedIdentity content = some i := by
  simp [State.rowHolds, Option.any_eq_true]

/-- A row leaves an identity in its entry when it holds it, VALID, and no row before it has. -/
theorem State.restoredContent_holds {s : State} {r : RowId} {i : Ident} :
    storedIdentity (s.restoredContent r) = some i ↔ s.rowHolds i r = true ∧ s.restoredFrom r i = none := by
  have delivered := storedIdentity_delivered r
  rw [State.rowHolds_iff]
  unfold State.restoredContent
  cases valid : s.validRow r with
  | none => simp [delivered]
  | some content =>
    rw [State.alertOfRow_valid valid]
    cases stored : storedIdentity content with
    | none => simp [stored]
    | some k =>
      cases earlier : s.restoredFrom r k with
      | none =>
        simp only [Option.bind_some, earlier, Option.map_none, if_pos, Option.getD_some, stored, Option.some.injEq]
        constructor
        · rintro rfl
          exact ⟨⟨content, rfl, stored⟩, earlier⟩
        · rintro ⟨⟨_, rfl, same⟩, -⟩
          exact Option.some.inj (stored.symm.trans same)
      | some q =>
        simp only [Option.bind_some, earlier, Option.map_some, reduceCtorEq, if_false, delivered, false_iff, not_and]
        rintro ⟨_, e, same⟩ unrestored
        cases e
        cases stored.symm.trans same
        exact Option.some_ne_none q (earlier.symm.trans unrestored)

/-- Of the rows read, the first that holds an identity is the one that leaves it in its entry. -/
theorem State.find_rowHolds {s : State} {done rest : List RowId} (order : restoreOrder = done ++ rest) {i : Ident}
    {q : RowId} :
    done.find? (s.rowHolds i) = some q ↔ q ∈ done ∧ storedIdentity (s.restoredContent q) = some i := by
  rw [State.restoredContent_holds]
  constructor
  · intro found
    obtain ⟨holds, before, after, rfl, others⟩ := List.find?_eq_some_iff_append.1 found
    refine ⟨List.mem_append_right _ List.mem_cons_self, holds, ?_⟩
    rw [State.restoredFrom_eq (order.trans (List.append_assoc ..)), List.find?_eq_none]
    simpa using others
  · rintro ⟨read, holds, unrestored⟩
    obtain ⟨before, after, rfl⟩ := List.append_of_mem read
    rw [State.restoredFrom_eq (order.trans (List.append_assoc ..)), List.find?_eq_none] at unrestored
    exact List.find?_eq_some_iff_append.2 ⟨holds, before, after, rfl, by simpa using unrestored⟩

/-! ## The rows read so far -/

/-- The alerts of the rows read, offered to race control one after the other. -/
def State.alerted (s : State) (done : List RowId) : State :=
  done.foldl (fun u r => (s.alertOfRow r).elim u u.offerRaceControl) s

/-- u is s but for binding records, marshal entries and ports. -/
def State.restoresOnly (s u : State) : Prop :=
  ∃ (bindings : Vector Binding 16) (marshals : Vector MarshalEntry 4) (ports : Vector Port 4), u = { s with
    binding := { s.binding with bindings := bindings, marshals := marshals }, ports := ports }

theorem State.restoresOnly.trans {s t u : State} (h : s.restoresOnly t) (g : t.restoresOnly u) : s.restoresOnly u := by
  obtain ⟨_, _, _, rfl⟩ := h
  obtain ⟨_, _, _, rfl⟩ := g
  exact ⟨_, _, _, rfl⟩

/-- Where the restore of s stands with the rows read in u: their entries restored, the others as they were, their alerts
offered, and nothing else changed. -/
structure State.RestoredTo (s : State) (done : List RowId) (u : State) : Prop where
  only : s.restoresOnly u
  ports : u.ports = (s.alerted done).ports
  car : ∀ c : CarId, u.binding.bindings[c] = if rowOfCar c ∈ done then
    s.binding.bindings[c].restore (s.restoredContent (rowOfCar c)) (s.restoredMark (rowOfCar c))
    else s.binding.bindings[c]
  marshal : ∀ m : MarshalId, u.binding.marshals[m] = if rowOfMarshal m ∈ done then
    s.binding.marshals[m].restore (s.restoredContent (rowOfMarshal m)) (s.restoredMark (rowOfMarshal m))
    else s.binding.marshals[m]

theorem State.alerted_snoc (s : State) (done : List RowId) (r : RowId) :
    s.alerted (done ++ [r]) = (s.alertOfRow r).elim (s.alerted done) (s.alerted done).offerRaceControl := by
  unfold State.alerted
  rw [List.foldl_append]
  rfl

theorem State.alerted_seq (s : State) (done : List RowId) : (s.alerted done).seq = s.seq := by
  refine (State.Orderly.foldl (f := fun u r => (s.alertOfRow r).elim u u.offerRaceControl) (fun u r => ?_) s done).seq
  cases s.alertOfRow r with
  | none => exact .refl u
  | some alert => exact u.offerWhere_orderly ..

/-- An alert, where there is one, touches the ports alone. -/
theorem State.elim_offerRaceControl_only (v : State) (alert : Option NoticeBody) :
    v.restoresOnly (alert.elim v v.offerRaceControl) := by
  cases alert <;> exact ⟨_, _, _, rfl⟩

theorem State.elim_offerRaceControl_binding (v : State) (alert : Option NoticeBody) :
    (alert.elim v v.offerRaceControl).binding = v.binding := by
  cases alert <;> rfl

theorem ite_mem_snoc_of_ne {α : Type} {done : List RowId} {q r : RowId} (other : q ≠ r) {x y : α} :
    (if q ∈ done ++ [r] then x else y) = if q ∈ done then x else y := by
  simp [other]

section
variable {s u : State} {done rest : List RowId} {r : RowId}

section
variable (stands : s.RestoredTo done u)
include stands

theorem State.RestoredTo.validRow (k : RowId) : u.validRow k = s.validRow k := by
  obtain ⟨_, _, _, rfl⟩ := stands.only
  rfl

theorem State.RestoredTo.seq : u.seq = s.seq := by
  obtain ⟨_, _, _, rfl⟩ := stands.only
  rfl

/-- The ports follow the alert of the row read next, offered on a state that has the ports and the time. -/
theorem State.RestoredTo.ports_snoc {v : State} (ports : v.ports = u.ports) (seq : v.seq = u.seq) :
    ((s.alertOfRow r).elim v v.offerRaceControl).ports = (s.alerted (done ++ [r])).ports := by
  have same := ports.trans stands.ports
  rw [State.alerted_snoc]
  cases s.alertOfRow r with
  | none => exact same
  | some alert =>
    exact State.offerRaceControl_ports_congr same (seq.trans (stands.seq.trans (s.alerted_seq done).symm)) alert

/-- A car's row is read: its record takes what the row leaves there, and then the alert is offered. -/
theorem State.RestoredTo.snoc_car (c : CarId) :
    let v := u.restoreBinding c (s.restoredContent (rowOfCar c)) (s.restoredMark (rowOfCar c))
    s.RestoredTo (done ++ [rowOfCar c]) ((s.alertOfRow (rowOfCar c)).elim v v.offerRaceControl) := by
  refine ⟨stands.only.trans (.trans ⟨_, _, _, rfl⟩ (State.elim_offerRaceControl_only ..)), stands.ports_snoc rfl rfl,
    fun k => ?_, fun m => ?_⟩ <;> rw [State.elim_offerRaceControl_binding]
  · refine (modAt_get ..).trans ?_
    rw [stands.car]
    by_cases same : k = c
    · subst same
      rw [if_pos rfl, if_pos List.mem_concat_self]
      split <;> rfl
    · rw [if_neg same, ite_mem_snoc_of_ne fun e => same (rowOfCar_injective e)]
  · refine (stands.marshal m).trans ?_
    rw [ite_mem_snoc_of_ne fun e => rowOfCar_ne_marshal c m (congrArg Fin.val e).symm]

/-- A marshal entry's row is read. -/
theorem State.RestoredTo.snoc_marshal (m : MarshalId) :
    let v := u.restoreEntry m (s.restoredContent (rowOfMarshal m)) (s.restoredMark (rowOfMarshal m))
    s.RestoredTo (done ++ [rowOfMarshal m]) ((s.alertOfRow (rowOfMarshal m)).elim v v.offerRaceControl) := by
  refine ⟨stands.only.trans (.trans ⟨_, _, _, rfl⟩ (State.elim_offerRaceControl_only ..)), stands.ports_snoc rfl rfl,
    fun c => ?_, fun k => ?_⟩ <;> rw [State.elim_offerRaceControl_binding]
  · refine (stands.car c).trans ?_
    rw [ite_mem_snoc_of_ne fun e => rowOfCar_ne_marshal c m (congrArg Fin.val e)]
  · refine (modAt_get ..).trans ?_
    rw [stands.marshal]
    by_cases same : k = m
    · subst same
      rw [if_pos rfl, if_pos List.mem_concat_self]
      split <;> rfl
    · rw [if_neg same, ite_mem_snoc_of_ne fun e => same (rowOfMarshal_injective e)]

section
variable (unlisted : ∀ m : MarshalId, s.binding.marshals[m].identity = none)
  (vacant : ∀ c : CarId, s.binding.bindings[c].held = none)
include unlisted vacant

/-- With the table EMPTY before the restore, an entry holds what its row has left there, and else nothing. -/
theorem State.RestoredTo.heldBy (h : Holder) :
    u.heldBy h = if rowOfEntry h ∈ done then storedIdentity (s.restoredContent (rowOfEntry h)) else none := by
  cases h with
  | marshal m =>
    change u.binding.marshals[m].identity = if rowOfMarshal m ∈ done then _ else _
    rw [stands.marshal]
    by_cases read : rowOfMarshal m ∈ done
    · rw [if_pos read, if_pos read]
      rfl
    · rw [if_neg read, if_neg read]
      exact unlisted m
  | car c =>
    change u.binding.bindings[c].held.map _ = if rowOfCar c ∈ done then _ else _
    rw [stands.car]
    by_cases read : rowOfCar c ∈ done
    · rw [if_pos read, if_pos read]
      simp [Binding.restore, restoredHeld, rowOfEntry, Function.comp_def]
    · rw [if_neg read, if_neg read, vacant]
      rfl

/-- An entry holds an identity exactly when its row is the first of those read that holds it. -/
theorem State.RestoredTo.heldBy_iff (order : restoreOrder = done ++ rest) {h : Holder} {i : Ident} :
    u.heldBy h = some i ↔ done.find? (s.rowHolds i) = some (rowOfEntry h) := by
  rw [stands.heldBy unlisted vacant, State.find_rowHolds order]
  split <;> simp [*]

/-- The entry that holds an identity is that of the row it has been restored from. -/
theorem State.RestoredTo.holderOfIdentity (order : restoreOrder = done ++ rest) (i : Ident) :
    u.holderOfIdentity i = (done.find? (s.rowHolds i)).map entryOfRow := by
  cases found : done.find? (s.rowHolds i) with
  | none =>
    refine State.holderOfIdentity_eq_none.2 fun h holds => ?_
    exact Option.some_ne_none _ (((stands.heldBy_iff unlisted vacant order).1 holds).symm.trans found)
  | some q =>
    refine State.holderOfIdentity_eq ((stands.heldBy_iff unlisted vacant order).2 ?_) fun k holds => ?_
    · rw [rowOfEntry_entryOfRow, found]
    · cases ((stands.heldBy_iff unlisted vacant order).1 holds).symm.trans found
      exact (entryOfRow_rowOfEntry k).symm

/-- The alert of the row read next is the one of the statement. -/
theorem State.RestoredTo.restoreAlert (order : restoreOrder = done ++ r :: rest) :
    u.restoreAlert r = s.alertOfRow r := by
  unfold State.restoreAlert
  rw [stands.validRow]
  cases valid : s.validRow r with
  | none => exact (State.alertOfRow_invalid valid).symm
  | some content =>
    rw [State.alertOfRow_valid valid]
    refine congrArg (Option.bind (storedIdentity content)) (funext fun i => ?_)
    rw [stands.holderOfIdentity unlisted vacant order, State.restoredFrom_eq order, Option.map_map]
    rfl

/-- The next row is a car's: its record takes what the row leaves there, and then the alert is offered. -/
theorem State.RestoredTo.restoreCar_eq {c : CarId} (order : restoreOrder = done ++ rowOfCar c :: rest) :
    let v := u.restoreBinding c (s.restoredContent (rowOfCar c)) (s.restoredMark (rowOfCar c))
    u.restoreCar c = (s.alertOfRow (rowOfCar c)).elim v v.offerRaceControl := by
  unfold State.restoreCar State.restoredContent State.restoredMark
  dsimp only
  rw [stands.restoreAlert unlisted vacant order, stands.validRow]
  cases s.alertOfRow (rowOfCar c) <;> rfl

/-- The next row is a marshal entry's. -/
theorem State.RestoredTo.restoreMarshal_eq {m : MarshalId} (order : restoreOrder = done ++ rowOfMarshal m :: rest) :
    let v := u.restoreEntry m (s.restoredContent (rowOfMarshal m)) (s.restoredMark (rowOfMarshal m))
    u.restoreMarshal m = (s.alertOfRow (rowOfMarshal m)).elim v v.offerRaceControl := by
  have own : (s.validRow (rowOfMarshal m)).bind storedIdentity =
      storedIdentity ((s.validRow (rowOfMarshal m)).getD (deliveredContent (rowOfMarshal m))) := by
    cases s.validRow (rowOfMarshal m) with
    | none => exact (storedIdentity_delivered _).symm
    | some content => rfl
  unfold State.restoreMarshal State.restoreEntry MarshalEntry.restore
  dsimp only
  rw [stands.restoreAlert unlisted vacant order, stands.validRow]
  cases alert : s.alertOfRow (rowOfMarshal m) with
  | none =>
    rw [State.restoredMark_clean alert, State.restoredContent, if_pos alert, ← own]
    rfl
  | some body =>
    have alerts : s.alertOfRow (rowOfMarshal m) ≠ none := alert ▸ Option.some_ne_none body
    rw [State.restoredMark_dirty alerts, State.restoredContent_delivered alerts, storedIdentity_delivered]
    rfl

/-- The next row read brings the restore one row on. -/
theorem State.RestoredTo.restoreRow (order : restoreOrder = done ++ r :: rest) :
    s.RestoredTo (done ++ [r]) (u.restoreRow r) := by
  unfold State.restoreRow
  obtain ⟨c, rfl⟩ | ⟨m, rfl⟩ := row_cases r
  · rw [entryOfRow_car]
    dsimp only
    rw [stands.restoreCar_eq unlisted vacant order]
    exact stands.snoc_car c
  · rw [entryOfRow_marshal]
    dsimp only
    rw [stands.restoreMarshal_eq unlisted vacant order]
    exact stands.snoc_marshal m

end

end

variable (unlisted : ∀ m : MarshalId, s.binding.marshals[m].identity = none)
  (vacant : ∀ c : CarId, s.binding.bindings[c].held = none)
include unlisted vacant

/-- The rows left are read one after the other. -/
theorem State.RestoredTo.foldl (stands : s.RestoredTo done u) (order : restoreOrder = done ++ rest) :
    s.RestoredTo restoreOrder (rest.foldl State.restoreRow u) := by
  induction rest generalizing done u with
  | nil =>
    rw [order, List.append_nil]
    exact stands
  | cons r rest ih => exact ih (stands.restoreRow unlisted vacant order) (order.trans (List.append_cons ..))

/-- The restore reads every row. -/
theorem State.restoreRows_restoredTo : s.RestoredTo restoreOrder s.restoreRows := by
  have start : s.RestoredTo [] s := ⟨⟨_, _, _, rfl⟩, rfl, fun _ => rfl, fun _ => rfl⟩
  rw [State.restoreRows_eq]
  exact start.foldl unlisted vacant rfl

end

/-! ## What the restore leaves -/

section
variable {s u : State} (stands : s.RestoredTo restoreOrder u)
include stands

theorem State.RestoredTo.marshal_restored {m : MarshalId} {i : Option Ident}
    (valid : s.validRow (rowOfMarshal m) = some (.marshal i)) (restores : s.alertOfRow (rowOfMarshal m) = none) :
    u.binding.marshals[m] = MarshalEntry.mk i s.binding.marshals[m].revision .clean := by
  rw [stands.marshal, if_pos (mem_restoreOrder _), State.restoredContent_own valid restores,
    State.restoredMark_clean restores]
  rfl

theorem State.RestoredTo.marshal_lost {m : MarshalId} (alert : s.alertOfRow (rowOfMarshal m) ≠ none) :
    u.binding.marshals[m] = MarshalEntry.mk none s.binding.marshals[m].revision .dirty := by
  rw [stands.marshal, if_pos (mem_restoreOrder _), State.restoredContent_delivered alert,
    State.restoredMark_dirty alert, deliveredContent_marshal]
  rfl

theorem State.RestoredTo.car_restored {c : CarId} {i : Option Ident} {ceiling permit : Byte}
    (valid : s.validRow (rowOfCar c) = some (.car i ceiling permit)) (restores : s.alertOfRow (rowOfCar c) = none) :
    u.binding.bindings[c] = Binding.mk (i.map fun y => Held.mk y .restored .reserved)
      (ceiling.setWidth 6) (if permit = 1 then .barred else .allowed) s.binding.bindings[c].revision .clean := by
  rw [stands.car, if_pos (mem_restoreOrder _), State.restoredContent_own valid restores,
    State.restoredMark_clean restores]
  rfl

theorem State.RestoredTo.car_lost {c : CarId} (alert : s.alertOfRow (rowOfCar c) ≠ none) :
    u.binding.bindings[c] = Binding.mk none 63 .allowed s.binding.bindings[c].revision .dirty := by
  rw [stands.car, if_pos (mem_restoreOrder _), State.restoredContent_delivered alert,
    State.restoredMark_dirty alert, deliveredContent_car]
  rfl

/-- With the restored flag set, the entries and their alerts are all that the restore changes. -/
theorem State.RestoredTo.whole : { u with seq := { u.seq with restored := true } } = { s with
    seq := { s.seq with restored := true },
    binding := { s.binding with bindings := u.binding.bindings, marshals := u.binding.marshals },
    ports := (s.alerted restoreOrder).ports } := by
  rw [← stands.ports]
  obtain ⟨_, _, _, rfl⟩ := stands.only
  rfl

end

theorem execRestore_due {s : State} (starting : s.seq.starting = true) (fresh : s.seq.restored = false) :
    execRestore s = .next { s.restoreRows with seq := { s.restoreRows.seq with restored := true } } := by
  refine if_pos ?_
  rw [starting, fresh]
  rfl

/-- Settles O7: a row is VALID as the rules say, and the restore stands where all the rows have been read. -/
theorem restoreReadsTheRows : Obligations.RestoreReadsTheRows := by
  intro s starting fresh unlisted vacant
  have stands := State.restoreRows_restoredTo unlisted vacant
  have due := execRestore_due starting fresh
  generalize s.restoreRows = u at stands due
  exact ⟨s.validRow_iff, _, due, fun m => ⟨fun _ => stands.marshal_restored, stands.marshal_lost⟩,
    fun c => ⟨fun _ _ _ => stands.car_restored, stands.car_lost⟩, stands.whole⟩

end Sys2Proof.Machine
end

section
/-! Every step keeps the ports as the links leave them: a hard reset gives each its reset record, every other command keeps its
bounds, and a bit period leaves it (R152, R153, R159, R161, R162). -/

namespace Sys2Proof.Machine

-- One after the other, the proofs need no thread each.
set_option Elab.async false

/-- A hard reset leaves a port in its reset record, its transaction discarded if SELn is low (R152, log 4). -/
theorem Port.pulsed_wf (raceControl low : Bool) :
    ({ Port.reset raceControl with selLow := low, discarded := low } : Port).wf := by
  obtain ⟨queue, attention, shed, sheds, losses, errors, -⟩ := Port.reset_wf raceControl
  exact ⟨queue, attention, shed, sheds, losses, errors, fun discarded => ⟨discarded, rfl⟩⟩

theorem execHardReset_portsWf (rcs : BitVec 4) (s : State) :
    ∃ t : State, exec (.hardReset rcs) s = .next t ∧ t.portsWf := by
  refine ⟨_, rfl, fun p => ?_⟩
  dsimp only
  rw [mapAll_get]
  exact Port.pulsed_wf ..

theorem exec_portsWf (c : Instr) {s : State} (ok : s.portsWf) : ∃ t : State, exec c s = .next t ∧ t.portsWf := by
  by_cases pulse : ∃ rcs : BitVec 4, c = .hardReset rcs
  · obtain ⟨rcs, rfl⟩ := pulse
    exact execHardReset_portsWf rcs s
  · obtain ⟨t, e, kept⟩ := exec_keepsPorts (fun rcs same => pulse ⟨rcs, same⟩) s
    exact ⟨t, e, kept.portsWf ok⟩

theorem State.bitPeriod_ports (s : State) : s.bitPeriod.ports = s.ports := by
  obtain ⟨_, -, -, -, -, e⟩ | ⟨-, e⟩ := s.bitPeriod_cases <;> rw [e]

/-- Settles O55: the command at the front of the queue keeps the ports in their bounds, and a bit period leaves them. -/
theorem everyStepKeepsThePorts : Obligations.EveryStepKeepsThePorts := by
  intro s t ok h
  unfold step at h
  split at h
  · cases h
    exact State.KeepsPorts.portsWf (.of_ports s.bitPeriod_ports) ok
  · next c rest _ =>
    obtain ⟨u, e, kept⟩ := exec_portsWf c (s := { s with pending := rest }) ok
    cases e.symm.trans h
    exact kept

end Sys2Proof.Machine
end

section
/-! The rules that the statements about the links share: a rewriting of a port beside the taking of a request, and how a
request row ends its transaction (R152, R153). -/

namespace Sys2Proof.Machine

-- One after the other, the proofs need no thread each.
set_option Elab.async false

/-! ## Taking a request and rewriting its port -/

/-- A rewriting of a port that leaves what the taking of a request sets commutes with it. -/
theorem State.taken_modPort (s : State) (p : PortId) {f : Port → Port}
    (apart : ∀ pt : Port, f { pt with selLow := false, shiftFrame := [], checkError := false } =
      { f pt with selLow := false, shiftFrame := [], checkError := false }) :
    (s.taken p).modPort p f = (s.modPort p f).taken p := by
  simp [State.taken, State.modPort, apart]

/-- A request that is taken leaves what its own operation makes of the state taken. -/
theorem State.next_request {s : State} {p : PortId} (takes : s.takes p) {op : State → State} {t : State}
    (done : op (s.taken p) = t) : (.next (s.request p op) : Host.Outcome State Fault Refusal) = .next t :=
  congrArg Host.Outcome.next ((State.request_running p op takes).trans done)

/-! ## The rise of SELn under a request row (R152, log 14) -/

/-- A request row is the rise of SELn on its port. -/
theorem exec_requestOf_rise {c : Instr} {p : PortId} {code : Byte} {payload : List Byte}
    (request : requestOf c = some (p, code, payload)) (s : State) :
    ∃ op : State → State, exec c s = .next (s.riseOfSel p op) := by
  cases c <;> simp only [requestOf, Option.some.injEq, Prod.mk.injEq, reduceCtorEq] at request <;>
    obtain ⟨rfl, -, -⟩ := request <;> exact ⟨_, rfl⟩

/-- A payload within the lengths of its row passes test 5 of R153, and its request is carried out. -/
theorem State.judgeRequest_row (s : State) (p : PortId) {code : Byte} {payload : List Byte} {name : RequestName}
    {least greatest : Nat} (row : requestRow code = some (name, least, greatest)) (long : least ≤ payload.length)
    (short : payload.length ≤ greatest) :
    s.judgeRequest p code payload = (s.setCheckError p false).carryOut p name payload := by
  unfold State.judgeRequest
  rw [row]
  exact if_neg (not_or_intro (Nat.not_lt.2 long) (Nat.not_lt.2 short))

/-- The rise of SELn reads its request at the end of the transaction alone. -/
theorem State.riseOfSel_congr (s : State) (p : PortId) {f g : State → State}
    (same : f (s.endTransaction p) = g (s.endTransaction p)) : s.riseOfSel p f = s.riseOfSel p g := by
  unfold State.riseOfSel
  rw [same]

/-- A well-formed request row is judged as tests 4 and 5 of R153 judge its code and payload in a frame. -/
theorem exec_requestOf {c : Instr} {p : PortId} {code : Byte} {payload : List Byte}
    (request : requestOf c = some (p, code, payload)) (formed : c.wellFormed = true) (s : State) :
    exec c s = .next (s.riseOfSel p fun u =>
      if u.seq.starting then u.refuse p .starting else u.judgeRequest p code payload) := by
  cases c <;> simp only [requestOf, Option.some.injEq, Prod.mk.injEq, reduceCtorEq] at request <;>
    obtain ⟨rfl, rfl, rfl⟩ := request
  case put q values =>
    simp only [Instr.wellFormed, putLengthOk, Bool.and_eq_true, decide_eq_true_eq] at formed
    obtain ⟨long, short⟩ := formed
    have filled : ¬ values.isEmpty = true := fun empty => by simp [List.isEmpty_iff.1 empty] at long
    refine congrArg Host.Outcome.next (s.riseOfSel_congr q ?_)
    rw [State.judgeRequest_row (code := 0x12) _ q rfl long short, if_neg (Nat.not_lt.2 short)]
    simp only [if_neg filled]
    rfl
  case reportHandset q identity count throttle code battery strength =>
    refine congrArg Host.Outcome.next (s.riseOfSel_congr q ?_)
    rw [State.judgeRequest_row (code := 0x20) _ q rfl (by simp [bytes2]) (by simp [bytes2])]
    unfold State.carryOut
    rw [wordAt_bytes2]
    rfl
  all_goals rfl

end Sys2Proof.Machine
end

section
/-! The reply frame at the fall of SELn, with its status byte (R152, R154, R161, Tables 9-2 and 10-1). -/

namespace Sys2Proof.Machine

-- One after the other, the proofs need no thread each.
set_option Elab.async false

/-! ## The bits of a byte -/

theorem flagByte_getElem (b : Bool) {k : Nat} (h : k < 8) : (flagByte b)[k] = (b && decide (k = 0)) := by
  cases b <;> simp [flagByte]

/-- The bits of a byte, the first in the highest place. -/
theorem byteOfBits_getLsbD (b7 b6 b5 b4 b3 b2 b1 b0 : Bool) :
    let x := byteOfBits [b7, b6, b5, b4, b3, b2, b1, b0]
    x.getLsbD 7 = b7 ∧ x.getLsbD 6 = b6 ∧ x.getLsbD 5 = b5 ∧ x.getLsbD 4 = b4 ∧ x.getLsbD 3 = b3 ∧ x.getLsbD 2 = b2 ∧
      x.getLsbD 1 = b1 ∧ x.getLsbD 0 = b0 := by
  simp [byteOfBits, flagByte_getElem]

/-! ## The status byte (Table 10-1) -/

/-- ATTNn, as R161 has it. -/
theorem Port.attention_iff (pt : Port) : pt.attention = true ↔
    (∃ n ∈ pt.queue, n.body.cls ≠ .info) ∨ (pt.queue ≠ [] ∧ pt.attentionLevel ≤ pt.queue.length) := by
  simp [Port.attention, Port.level]

/-- Settles O10: the frame is the reply buffer's behind the status byte, whose bits are the flags in their order. -/
theorem selnFallComposesTheReplyFrame : Obligations.SelnFallComposesTheReplyFrame := by
  intro p s
  obtain ⟨b7, b6, b5, b4, b3, b2, b1, b0⟩ := byteOfBits_getLsbD (s.ports[p]).attention ((s.ports[p]).queue != [])
    ((s.ports[p]).queue.any (·.body.cls == .directive)) (0 < (s.ports[p]).shedCount) (s.ports[p]).checkError
    (s.ports[p]).raceControl (s.geo.phase == .run) s.binding.window.isSome
  refine ⟨_, rfl, ?attention, ?waiting, ?directive, ?shed, b3, b2, ?run, ?window⟩
  case attention => exact b7 ▸ Port.attention_iff _
  case waiting => exact b6 ▸ bne_iff_ne
  case directive => exact b5 ▸ by simp
  case shed => exact b4 ▸ decide_eq_true_iff
  case run => exact b1 ▸ beq_iff_eq
  case window => exact b0 ▸ Option.isSome_iff_ne_none

end Sys2Proof.Machine
end

section
/-! Request frames: one that passes the tests of R153 does what its request row does, one that fails a test is answered and
counted, and the rise of SELn in a discarded transaction takes none (R152, R153, R164, R165, Table 10-3). -/

namespace Sys2Proof.Machine

-- One after the other, the proofs need no thread each.
set_option Elab.async false

/-! ## Table 10-3 -/

/-- No code stands in two rows. -/
theorem requestRow_of_mem : ∀ row ∈ requestTable, requestRow row.1 = some row.2 := by decide

theorem requestRow_eq_none {code : Byte} : requestRow code = none ↔ ∀ row ∈ requestTable, row.1 ≠ code := by
  simp only [requestRow, Option.map_eq_none_iff, List.find?_eq_none, beq_iff_eq, ne_eq]

/-- Test 4 of R153. -/
theorem State.judgeRequest_unknown (s : State) (p : PortId) {code : Byte} (unknown : requestRow code = none)
    (payload : List Byte) :
    s.judgeRequest p code payload = (s.setCheckError p false).refuse p .unknownRequest := by
  unfold State.judgeRequest
  rw [unknown]

/-- Test 5 of R153. -/
theorem State.judgeRequest_misfit (s : State) (p : PortId) {code : Byte} {payload : List Byte}
    {row : RequestName × Nat × Nat} (named : requestRow code = some row)
    (misfit : payload.length < row.2.1 ∨ row.2.2 < payload.length) :
    s.judgeRequest p code payload = (s.setCheckError p false).frameError p := by
  unfold State.judgeRequest
  rw [named]
  exact if_pos misfit

/-! ## The tests of a frame, in order (R153) -/

/-- Test 2: the frame is too short for its form, or its length too great. -/
def frameMalformed (bytes : List Byte) : Prop :=
  bytes.length < 3 ∨ 16 < (byteAt bytes 1).toNat ∨ bytes.length < (byteAt bytes 1).toNat + 3

/-- The code, length and payload of a frame. -/
def frameBody (bytes : List Byte) : List Byte := bytes.take ((byteAt bytes 1).toNat + 2)

/-- Test 3: the byte behind them is their CRC. -/
def frameChecked (bytes : List Byte) : Prop := byteAt bytes ((byteAt bytes 1).toNat + 2) = crc8 (frameBody bytes)

section
variable {s : State} (running : s.seq.starting = false) (p : PortId) {bytes : List Byte}
include running

theorem State.judgeFrame_malformed (malformed : frameMalformed bytes) : s.judgeFrame p bytes = s.frameError p :=
  (if_neg (ne_true_of_eq_false running)).trans (if_pos malformed)

theorem State.judgeFrame_unchecked (formed : ¬ frameMalformed bytes) (unchecked : ¬ frameChecked bytes) :
    s.judgeFrame p bytes = s.checkErrorReply p :=
  (if_neg (ne_true_of_eq_false running)).trans ((if_neg formed).trans (if_pos unchecked))

theorem State.judgeFrame_checked (formed : ¬ frameMalformed bytes) (checked : frameChecked bytes) :
    s.judgeFrame p bytes = s.judgeRequest p (byteAt bytes 0) ((frameBody bytes).drop 2) :=
  (if_neg (ne_true_of_eq_false running)).trans ((if_neg formed).trans (if_neg (not_not_intro checked)))

end

/-- The payload of a frame of the right form has the frame's length. -/
theorem frameBody_payload_length {bytes : List Byte} (formed : ¬ frameMalformed bytes) :
    ((frameBody bytes).drop 2).length = (byteAt bytes 1).toNat := by
  unfold frameMalformed at formed
  unfold frameBody
  rw [List.length_drop, List.length_take]
  omega

/-! ## The frame of a request (R165) -/

section
variable (code : Byte) {payload : List Byte} (short : payload.length ≤ 16) (fill : List Byte)
include short

theorem requestFrame_length_byte : (byteAt (requestFrameBytes code payload ++ fill) 1).toNat = payload.length := by
  change (natByte payload.length).toNat = _
  rw [natByte, BitVec.toNat_ofNat]
  omega

theorem requestFrame_body :
    frameBody (requestFrameBytes code payload ++ fill) = code :: natByte payload.length :: payload := by
  unfold frameBody
  rw [requestFrame_length_byte code short]
  simp [requestFrameBytes]

theorem requestFrame_formed : ¬ frameMalformed (requestFrameBytes code payload ++ fill) := by
  have length : (requestFrameBytes code payload ++ fill).length = payload.length + (fill.length + 1) + 2 := by
    simp [requestFrameBytes]
  unfold frameMalformed
  rw [requestFrame_length_byte code short, length]
  omega

theorem requestFrame_checked : frameChecked (requestFrameBytes code payload ++ fill) := by
  unfold frameChecked
  rw [requestFrame_body code short, requestFrame_length_byte code short]
  simp [requestFrameBytes, byteAt]

/-- Fill bytes are dropped, and the request is judged by its code and payload. -/
theorem State.judgeFrame_requestFrame (s : State) (p : PortId) :
    s.judgeFrame p (requestFrameBytes code payload ++ fill) =
      if s.seq.starting then s.refuse p .starting else s.judgeRequest p code payload := by
  cases running : s.seq.starting with
  | true => exact State.judgeFrame_starting running p _
  | false =>
    rw [State.judgeFrame_checked running p (requestFrame_formed code short fill) (requestFrame_checked code short fill),
      requestFrame_body code short]
    rfl

end

/-- Settles O11: the frame passes tests 2 and 3, and its row is judged as its code and payload are. -/
theorem requestFrameIsItsRequest : Obligations.RequestFrameIsItsRequest := by
  intro c p code payload fill rest s request formed part
  obtain ⟨short, -⟩ := requestOf_row request formed
  rw [exec_requestOf request formed s]
  refine congrArg Host.Outcome.next (s.riseOfSel_congr p ?_)
  rw [gatherBytes_byteBits _ part]
  exact State.judgeFrame_requestFrame code short fill _ p

/-! ## Link errors (R153) -/

theorem State.modPort_hasRights (s : State) (p : PortId) {f : Port → Port}
    (rights : ∀ pt : Port, (f pt).raceControl = pt.raceControl) : (s.modPort p f).hasRights = s.hasRights := by
  funext q
  unfold State.hasRights
  rw [State.modPort_ports]
  split
  · exact rights _
  · rfl

theorem Port.offer_reply (pt : Port) (n : Notice) (r : Reply) :
    ({ pt with reply := r }).offer n = { pt.offer n with reply := r } := by
  unfold Port.offer Port.level
  split <;> (try split) <;> rfl

/-- An offer is made to every port in its own event, so a rewriting of one port that it does not see commutes with it. -/
theorem State.modPort_offerWhere (s : State) (p : PortId) {f : Port → Port}
    (unseen : ∀ (pt : Port) (n : Notice), (f pt).offer n = f (pt.offer n)) (dest : PortId → Bool) (body : NoticeBody) :
    (s.modPort p f).offerWhere dest body = (s.offerWhere dest body).modPort p f := by
  refine congrArg (fun ports => { s with ports := ports }) (bank_ext fun q => ?_)
  rw [mapAll_get, modAt_get, State.modPort_ports, State.offerWhere_ports]
  by_cases own : q = p
  · rw [if_pos own, if_pos own, unseen]
    exact (apply_ite f ..).symm
  · rw [if_neg own, if_neg own]
    rfl

theorem State.reply_offerRaceControl (s : State) (p : PortId) (r : Reply) (body : NoticeBody) :
    (s.reply p r).offerRaceControl body = (s.offerRaceControl body).reply p r := by
  have rights : (s.reply p r).hasRights = s.hasRights := State.modPort_hasRights s p fun _ => rfl
  unfold State.offerRaceControl
  rw [rights]
  exact State.modPort_offerWhere s p (fun pt n => Port.offer_reply pt n r) _ body

/-- A link error counted and answered, by what both leave in the port. -/
theorem State.countLinkError_reply (s : State) (p : PortId) (r : Reply) :
    (s.countLinkError p).reply p r =
      (let counted := s.modPort p fun pt => { pt with linkErrors := min (pt.linkErrors + 1) 255, reply := r }
       if s.ports[p].linkErrors = 15 then counted.offerRaceControl (.linkErrors p 16) else counted) := by
  have counted : (s.modPort p fun pt => { pt with linkErrors := min (s.ports[p].linkErrors + 1) 255 }).reply p r =
      s.modPort p fun pt => { pt with linkErrors := min (pt.linkErrors + 1) 255, reply := r } := by
    unfold State.reply State.modPort
    rw [modAt_modAt]
    exact congrArg (fun ports => { s with ports := ports }) (modAt_congr _ _ rfl)
  rw [State.countLinkError_cases]
  dsimp only
  rw [← counted, State.reply_offerRaceControl]
  exact apply_ite (fun u : State => u.reply p r) ..

/-- A frame that fails a test, in the statements' words: the flag is set as given, the error counted and answered. -/
theorem State.endTransaction_linkError (s : State) (p : PortId) (flag : Bool) (r : Reply) :
    (((s.endTransaction p).setCheckError p flag).countLinkError p).reply p r = s.linkError p flag r := by
  have errors : (((s.endTransaction p).setCheckError p flag).ports[p]).linkErrors = (s.ports[p]).linkErrors := by
    simp [State.endTransaction, State.setCheckError, State.modPort]
  rw [State.countLinkError_reply, errors]
  simp [State.linkError, State.endTransaction, State.setCheckError, State.modPort]

/-- A frame of the wrong form leaves the check-error flag. -/
theorem State.endTransaction_frameError (s : State) (p : PortId) :
    (s.endTransaction p).frameError p = s.linkError p (s.ports[p]).checkError .frameError := by
  have left : (s.endTransaction p).setCheckError p (s.ports[p]).checkError = s.endTransaction p := by
    unfold State.endTransaction State.setCheckError State.modPort
    rw [modAt_modAt]
    exact congrArg (fun ports => { s with ports := ports }) (modAt_congr _ _ rfl)
  rw [← State.endTransaction_linkError, left]
  rfl

/-! ## Frames that fail a test -/

/-- The request that a frame with a whole byte makes, on a port that takes requests. -/
theorem exec_requestFrame_bytes {p : PortId} {s : State} (kept : (s.ports[p]).discarded = false) {bytes : List Byte}
    (whole : bytes ≠ []) {rest : List Bool} (part : rest.length < 8) :
    exec (.requestFrame p (byteBits bytes ++ rest)) s = .next ((s.endTransaction p).judgeFrame p bytes) := by
  refine congrArg Host.Outcome.next ((State.riseOfSel_kept p _ kept).trans ?_)
  rw [gatherBytes_byteBits bytes part]
  cases bytes with
  | nil => exact absurd rfl whole
  | cons b more => rfl

/-- A discarded transaction takes no request, as a frame or as a request row. -/
theorem riseOfSel_discards {p : PortId} {s : State} (discarded : (s.ports[p]).discarded = true) (sdi : List Bool) :
    exec (.requestFrame p sdi) s = .next (s.discardEnded p) ∧
      ∀ (c : Instr) (code : Byte) (payload : List Byte), requestOf c = some (p, code, payload) →
        exec c s = .next (s.discardEnded p) := by
  refine ⟨congrArg Host.Outcome.next (State.riseOfSel_discarded p _ discarded), fun c code payload request => ?_⟩
  obtain ⟨op, rise⟩ := exec_requestOf_rise request s
  rw [rise, State.riseOfSel_discarded p op discarded]

/-- A hard reset under a low SELn discards the transaction and leaves IDLE in the reply buffer. -/
theorem execHardReset_discards {p : PortId} {s : State} (low : (s.ports[p]).selLow = true) (rcs : BitVec 4) :
    ∃ t : State, exec (.hardReset rcs) s = .next t ∧ (t.ports[p]).discarded = true ∧ (t.ports[p]).reply = .idle := by
  refine ⟨_, rfl, ?_⟩
  dsimp only
  rw [mapAll_get]
  exact ⟨low, rfl⟩

/-- Settles O12: the discarded transaction, the empty one, and the tests of R153 one by one. -/
theorem framesThatFailAreAnswered : Obligations.FramesThatFailAreAnswered := by
  intro p sdi s
  refine ⟨fun discarded => riseOfSel_discards discarded sdi, fun low rcs => ?pulsed, fun part kept => ?empty, ?frames⟩
  case pulsed =>
    obtain ⟨t, reset, discarded, idle⟩ := execHardReset_discards low rcs
    refine ⟨t, reset, (riseOfSel_discards discarded sdi).1, ?_⟩
    unfold State.discardEnded
    dsimp only
    rw [modAt_get_self]
    exact idle
  case empty =>
    refine congrArg Host.Outcome.next ((State.riseOfSel_kept p _ kept).trans ?_)
    rw [gatherBytes_short part]
    rfl
  case frames =>
    rintro bytes rest ⟨running, kept⟩ whole part rfl
    have taken := exec_requestFrame_bytes kept whole part
    have running' : (s.endTransaction p).seq.starting = false := running
    refine ⟨fun malformed => ?form, fun formed unchecked => ?crc, fun formed checked unknown => ?code,
      fun formed checked misfit => ?size⟩
    case form => rw [taken, State.judgeFrame_malformed running' p malformed, State.endTransaction_frameError]
    case crc =>
      rw [taken, State.judgeFrame_unchecked running' p formed unchecked, ← State.endTransaction_linkError]
      rfl
    case code =>
      have named : requestRow (byteAt bytes 0) = none := requestRow_eq_none.2 unknown
      rw [taken, State.judgeFrame_checked running' p formed checked, State.judgeRequest_unknown _ p named,
        State.endTransaction_setCheckError, State.taken_refuse]
    case size =>
      obtain ⟨row, listed, code, misfit⟩ := misfit
      have named : requestRow (byteAt bytes 0) = some row.2 :=
        (congrArg requestRow code).symm.trans (requestRow_of_mem row listed)
      have length := frameBody_payload_length formed
      rw [taken, State.judgeFrame_checked running' p formed checked,
        State.judgeRequest_misfit _ p named (length.symm ▸ misfit), ← State.endTransaction_linkError]
      rfl

end Sys2Proof.Machine
end

section
/-! The requests of a port about itself: offered notices, TAKE, POLL, PORT STATUS, PORT SET and PORT RESET (R152, R159 to R163). -/

namespace Sys2Proof.Machine

-- One after the other, the proofs need no thread each.
set_option Elab.async false

/-! ## Offered notices (R159) -/

/-- Settles O13: by the notice's class, and in a class by the level. -/
theorem offeredNoticesFollowTheirClass : Obligations.OfferedNoticesFollowTheirClass := by
  intro pt n
  refine ⟨fun room below => ?queued, fun info none => ?shed, fun alert full => ?lost, fun directive full => ?left⟩
  case queued =>
    cases cls : n.body.cls with
    | directive => exact (Port.offer_directive cls).trans (if_pos room)
    | alert => exact (Port.offer_alert cls).trans (if_pos room)
    | info => exact (Port.offer_info cls).trans (if_pos ⟨below cls, room⟩)
  case shed => exact (Port.offer_info info).trans (if_neg (by omega))
  case lost => exact (Port.offer_alert alert).trans (if_neg (Nat.not_lt.2 full))
  case left => exact (Port.offer_directive directive).trans (if_neg (Nat.not_lt.2 full))

/-! ## TAKE (R160) -/

/-- Settles O14: by whether the queue holds a notice. -/
theorem takeReturnsTheHeadNotice : Obligations.TakeReturnsTheHeadNotice := by
  intro p s takes
  refine ⟨fun n rest head => State.next_request takes ?_, fun empty => State.next_request takes ?_⟩
  · unfold State.reqTake
    rw [State.taken_port_self, head]
    dsimp only
    rw [State.taken_modPort s p fun _ => rfl, State.taken_done]
    rfl
  · unfold State.reqTake
    rw [State.taken_port_self, empty]
    exact State.taken_done ..

/-! ## POLL, PORT STATUS and PORT SET (R152, R161, R162) -/

theorem mem_portSetPlaces {attention shed k : Byte} : k ∈ portSetPlaces attention shed ↔
    k = 1 ∧ ¬ (1 ≤ attention.toNat ∧ attention.toNat ≤ 32) ∨ k = 2 ∧ ¬ (1 ≤ shed.toNat ∧ shed.toNat ≤ 32) := by
  unfold portSetPlaces
  rw [inRange_eq, inRange_eq, List.mem_append, List.mem_ite_nil_left, List.mem_ite_nil_left, List.mem_singleton,
    List.mem_singleton, decide_eq_true_eq, decide_eq_true_eq]
  exact or_congr and_comm and_comm

/-- Settles O15: each request by its own operation, PORT SET by whether both levels are in range. -/
theorem pollPortStatusAndPortSet : Obligations.PollPortStatusAndPortSet := by
  intro p a b s takes
  refine ⟨State.next_request takes (State.taken_done ..), State.next_request takes ?status,
    fun within => State.next_request takes ?set, fun outside => ?range⟩
  case status =>
    unfold State.reqPortStatus
    rw [State.taken_port_self, State.taken_modPort s p fun _ => rfl]
    exact State.taken_done ..
  case set =>
    obtain ⟨a1, a32, b1, b32⟩ := within
    unfold State.reqPortSet
    rw [if_pos (portSetPlaces_isEmpty.2 ⟨⟨a1, a32⟩, b1, b32⟩), State.taken_modPort s p fun _ => rfl]
    exact State.taken_done ..
  case range =>
    have offends : ¬ (portSetPlaces a b).isEmpty = true := fun empty => outside (by
      obtain ⟨⟨a1, a32⟩, b1, b32⟩ := portSetPlaces_isEmpty.1 empty
      exact ⟨a1, a32, b1, b32⟩)
    obtain ⟨k, free, named, e⟩ := State.taken_refuseRange (s := s) (p := p) (places := portSetPlaces a b)
      fun empty => offends (List.isEmpty_iff.2 empty)
    refine ⟨k, free, mem_portSetPlaces.1 named, State.next_request takes ?_⟩
    unfold State.reqPortSet
    rw [if_neg offends, e]

/-! ## PORT RESET (R163) -/

/-- Settles O16: the port's reset record with its levels and rights, its transaction ended by the request. -/
theorem portResetKeepsLevelsAndRights : Obligations.PortResetKeepsLevelsAndRights := by
  intro p s takes
  refine ⟨State.next_request takes ?_, rfl⟩
  unfold State.reqPortReset State.taken State.modPort
  dsimp only
  rw [modAt_modAt]
  refine congrArg (fun ports => { s with ports := ports }) (modAt_congr _ _ ?_)
  unfold Port.portReset
  dsimp only
  rw [takes.2]
  rfl

end Sys2Proof.Machine
end

section
/-! SELECT: the record that a table and an index name, its default image, and the cursor (R155, R166, Table 9-3). -/

namespace Sys2Proof.Machine

-- One after the other, the proofs need no thread each.
set_option Elab.async false

/-! ## The record named (Table 9-3) -/

theorem idxByte_of_finOf {n : Nat} {b : Byte} {i : Fin n} (h : finOf n b = some i) : idxByte i = b := by
  rw [idxByte, natByte, ← finOf_eq_some.1 h, BitVec.ofNat_toNat, BitVec.setWidth_eq]

theorem numByte_of_numOf {n : Nat} {b : Byte} {i : Fin n} (h : numOf n b = some i) : numByte i = b := by
  rw [numByte, natByte, ← numOf_eq_some.1 h, BitVec.ofNat_toNat, BitVec.setWidth_eq]

/-- What a table and an index may name: the record that has them, or an offending place, the table's before the index's. -/
inductive RecordNamed (table index : Byte) : Except Byte RecordRef → Prop
  | record (ref : RecordRef) : ref.table = table → ref.index = index → RecordNamed table index (.ok ref)
  | badIndex : table.toNat ≤ 7 → RecordNamed table index (.error 2)
  | badTable : 7 < table.toNat → RecordNamed table index (.error 1)

/-- A search in one table: what it finds has the table and the index. -/
theorem RecordNamed.of_search {table index : Byte} (inTable : table.toNat ≤ 7) {o : Option RecordRef}
    (found : ∀ ref ∈ o, ref.table = table ∧ ref.index = index) : RecordNamed table index (o.elim (.error 2) .ok) := by
  cases o with
  | none => exact .badIndex inTable
  | some ref =>
    obtain ⟨ofTable, atIndex⟩ := found ref rfl
    exact .record ref ofTable atIndex

/-- A table whose records are counted from 0. -/
theorem RecordNamed.of_finOf {table index : Byte} (inTable : table.toNat ≤ 7) {n : Nat} (f : Fin n → RecordRef)
    (spelled : ∀ i : Fin n, (f i).table = table ∧ (f i).index = idxByte i) :
    RecordNamed table index (((finOf n index).map f).elim (.error 2) .ok) :=
  .of_search inTable fun ref found => by
    obtain ⟨i, named, rfl⟩ := Option.map_eq_some_iff.1 found
    exact ⟨(spelled i).1, (spelled i).2.trans (idxByte_of_finOf named)⟩

/-- A table whose records are counted from 1. -/
theorem RecordNamed.of_numOf {table index : Byte} (inTable : table.toNat ≤ 7) {n : Nat} (f : Fin n → RecordRef)
    (spelled : ∀ i : Fin n, (f i).table = table ∧ (f i).index = numByte i) :
    RecordNamed table index (((numOf n index).map f).elim (.error 2) .ok) :=
  .of_search inTable fun ref found => by
    obtain ⟨i, named, rfl⟩ := Option.map_eq_some_iff.1 found
    exact ⟨(spelled i).1, (spelled i).2.trans (numByte_of_numOf named)⟩

theorem recordRefOf_spec (table index : Byte) : RecordNamed table index (recordRefOf table index) := by
  unfold recordRefOf
  dsimp only
  split
  case isTrue zone => exact .of_finOf (by rw [zone]; decide) _ fun _ => ⟨zone.symm, rfl⟩
  split
  case isTrue switch => exact .of_finOf (by rw [switch]; decide) _ fun _ => ⟨switch.symm, rfl⟩
  split
  case isTrue sensor => exact .of_finOf (by rw [sensor]; decide) _ fun _ => ⟨sensor.symm, rfl⟩
  split
  case isTrue binding => exact .of_numOf (by rw [binding]; decide) _ fun _ => ⟨binding.symm, rfl⟩
  split
  case isTrue marshal => exact .of_numOf (by rw [marshal]; decide) _ fun _ => ⟨marshal.symm, rfl⟩
  split
  case isTrue settings =>
    refine .of_search (by rw [settings]; decide) fun ref found => ?_
    obtain ⟨first, same⟩ := Option.ite_none_right_eq_some.1 found
    cases same
    exact ⟨settings.symm, first.symm⟩
  split
  case isTrue handset => exact .of_finOf (by rw [handset]; decide) _ fun _ => ⟨handset.symm, rfl⟩
  split
  case isTrue car => exact .of_numOf (by rw [car]; decide) _ fun _ => ⟨car.symm, rfl⟩
  exact .badTable (by bv_omega)

/-- A record's table and index name it. -/
theorem recordRefOf_named (ref : RecordRef) : recordRefOf ref.table ref.index = .ok ref := by
  cases ref with
  | zone i | switch i | sensor i | handset i =>
    simp [recordRefOf, RecordRef.table, RecordRef.index, finOf_idxByte]
  | binding i | marshal i | car i => simp [recordRefOf, RecordRef.table, RecordRef.index, numOf_numByte]
  | settings => rfl

theorem RecordRef.table_le (ref : RecordRef) : ref.table.toNat ≤ 7 := by
  cases ref <;> simp [RecordRef.table]

theorem recordRefOf_badTable {table : Byte} (beyond : 7 < table.toNat) (index : Byte) :
    recordRefOf table index = .error 1 := by
  have named := recordRefOf_spec table index
  generalize recordRefOf table index = o at named
  cases named with
  | record ref ofTable _ => exact absurd (ofTable ▸ ref.table_le) (Nat.not_le.2 beyond)
  | badIndex inTable => exact absurd inTable (Nat.not_le.2 beyond)
  | badTable => rfl

theorem recordRefOf_badIndex {table index : Byte} (inTable : table.toNat ≤ 7)
    (none : ∀ ref : RecordRef, ref.table = table → ref.index ≠ index) : recordRefOf table index = .error 2 := by
  have named := recordRefOf_spec table index
  generalize recordRefOf table index = o at named
  cases named with
  | record ref ofTable atIndex => exact absurd atIndex (none ref ofTable)
  | badIndex => rfl
  | badTable beyond => exact absurd inTable (Nat.not_le.2 beyond)

/-- The ranges of Table 9-3. -/
theorem exists_record_iff {table index : Byte} : (∃ ref : RecordRef, ref.table = table ∧ ref.index = index) ↔
    (table = 0 ∧ index.toNat < 64) ∨ (table = 1 ∧ index.toNat < 32) ∨ (table = 2 ∧ index.toNat < 128) ∨
    (table = 3 ∧ 1 ≤ index.toNat ∧ index.toNat ≤ 16) ∨ (table = 4 ∧ 1 ≤ index.toNat ∧ index.toNat ≤ 4) ∨
    (table = 5 ∧ index = 0) ∨ (table = 6 ∧ index.toNat < 24) ∨ (table = 7 ∧ 1 ≤ index.toNat ∧ index.toNat ≤ 16) := by
  have fin {n : Nat} (low : index.toNat < n) : ∃ i : Fin n, idxByte i = index :=
    ⟨⟨index.toNat, low⟩, idxByte_of_finOf (finOf_eq_some.2 rfl)⟩
  have num {n : Nat} (low : 1 ≤ index.toNat) (high : index.toNat ≤ n) : ∃ i : Fin n, numByte i = index :=
    ⟨⟨index.toNat - 1, by omega⟩, numByte_of_numOf (numOf_eq_some.2 (Nat.sub_add_cancel low).symm)⟩
  constructor
  · rintro ⟨ref, rfl, rfl⟩
    cases ref with
    | zone i | switch i | sensor i | handset i | binding i | marshal i | car i =>
      simp [RecordRef.table, RecordRef.index, idxByte, numByte, natByte]
      omega
    | settings => simp [RecordRef.table, RecordRef.index]
  · rintro (⟨rfl, low⟩ | ⟨rfl, low⟩ | ⟨rfl, low⟩ | ⟨rfl, low, high⟩ | ⟨rfl, low, high⟩ | ⟨rfl, rfl⟩ | ⟨rfl, low⟩ |
      ⟨rfl, low, high⟩)
    · exact (fin low).elim fun i e => ⟨.zone i, rfl, e⟩
    · exact (fin low).elim fun i e => ⟨.switch i, rfl, e⟩
    · exact (fin low).elim fun i e => ⟨.sensor i, rfl, e⟩
    · exact (num low high).elim fun i e => ⟨.binding i, rfl, e⟩
    · exact (num low high).elim fun i e => ⟨.marshal i, rfl, e⟩
    · exact ⟨.settings, rfl, rfl⟩
    · exact (fin low).elim fun i e => ⟨.handset i, rfl, e⟩
    · exact (num low high).elim fun i e => ⟨.car i, rfl, e⟩

/-! ## The default records (R1, R3, R6, R38, R56, R60, R81, R128) -/

/-- The writable bytes of each table's default record. -/
theorem RecordRef.defaultImage_writable (ref : RecordRef) :
    (ref.table = 0 → ref.defaultImage.take 7 = [1, 0, 1, 0, 250, 0, 0]) ∧
    (ref.table = 1 → ref.defaultImage.take 13 = [1, 0, 0, 0, 0, 0, 0xFF, 1, 0x90, 0, 80, 5, 0xDC]) ∧
    (ref.table = 2 → ref.defaultImage.take 5 = [1, 0, 0, 0xFF, 0]) ∧
    (ref.table = 3 → ref.defaultImage.take 4 = [0, 0, 63, 0]) ∧
    (ref.table = 4 → ref.defaultImage.take 2 = [0, 0]) ∧
    (ref.table = 5 → ref.defaultImage.take 11 = [24, 20, 7, 0xD0, 10, 16, 2, 0x58, 16, 1, 1]) := by
  cases ref with
  | zone => exact ⟨fun _ => rfl, nofun, nofun, nofun, nofun, nofun⟩
  | switch => exact ⟨nofun, fun _ => rfl, nofun, nofun, nofun, nofun⟩
  | sensor => exact ⟨nofun, nofun, fun _ => rfl, nofun, nofun, nofun⟩
  | binding => exact ⟨nofun, nofun, nofun, fun _ => rfl, nofun, nofun⟩
  | marshal => exact ⟨nofun, nofun, nofun, nofun, fun _ => rfl, nofun⟩
  | settings => exact ⟨nofun, nofun, nofun, nofun, nofun, fun _ => rfl⟩
  | handset | car => exact ⟨nofun, nofun, nofun, nofun, nofun, nofun⟩

/-! ## The request (R155) -/

section
variable {p : PortId} {s : State} (takes : s.takes p)
include takes

theorem exec_select_named (ref : RecordRef) : exec (.select p ref.table ref.index) s = .next ((s.modPort p fun pt =>
    { pt with staging := some (Staging.mk .unconditional ref ref.defaultImage 1), cursor := some ref }).answer p
      (.done [])) := by
  refine State.next_request takes ?_
  unfold State.reqSelect
  rw [recordRefOf_named]
  dsimp only
  rw [State.taken_modPort s p fun _ => rfl, State.taken_done]

theorem exec_select_offends {table index place : Byte} (offends : recordRefOf table index = .error place) :
    exec (.select p table index) s = .next (s.answer p (.refused (.range place))) := by
  refine State.next_request takes ?_
  unfold State.reqSelect
  rw [offends]
  exact State.taken_refuse ..

end

/-- Settles O17: by what the table and the index name. -/
theorem selectLoadsTheDefaultRecord : Obligations.SelectLoadsTheDefaultRecord := by
  intro p table index s takes
  refine ⟨fun ref ofTable atIndex => ?_, fun beyond => exec_select_offends takes (recordRefOf_badTable beyond index),
    fun inTable none => exec_select_offends takes (recordRefOf_badIndex inTable none), exists_record_iff⟩
  subst ofTable atIndex
  exact ⟨exec_select_named takes ref, ref.defaultImage_writable⟩

end Sys2Proof.Machine
end

section
/-! PUT: how far its bytes reach into the writable fields from the field pointer, and what they leave of the staging (R157,
R166). -/

namespace Sys2Proof.Machine

-- One after the other, the proofs need no thread each.
set_option Elab.async false

/-! ## The walk over the fields -/

/-- The bytes of the first fields, counted in two runs. -/
theorem sum_take_add (sizes : List Nat) (a b : Nat) :
    (sizes.take (a + b)).sum = (sizes.take a).sum + ((sizes.drop a).take b).sum := by
  rw [List.take_add, List.sum_append]

/-- Bytes that fill the first j fields reach up to the field after them. -/
theorem putWalk_upTo {sizes : List Nat} (filled : ∀ k ∈ sizes, 0 < k) {j : Nat} (within : j ≤ sizes.length) (field : Nat) :
    putWalk sizes field (sizes.take j).sum = .upTo (field + j) := by
  induction sizes generalizing field j with
  | nil =>
    obtain rfl := Nat.le_zero.1 within
    rfl
  | cons k rest ih =>
    cases j with
    | zero => rfl
    | succ j =>
      have wide : 0 < k := filled k List.mem_cons_self
      rw [List.take_succ_cons, List.sum_cons, putWalk, if_neg (by omega), if_neg (by omega), Nat.add_sub_cancel_left,
        ih (fun m hm => filled m (List.mem_cons_of_mem k hm)) (Nat.le_of_succ_le_succ within)]
      congr 1
      omega

/-- Bytes that pass the first j fields and end before the next does end part way through it. -/
theorem putWalk_partWay {sizes : List Nat} {j bytes : Nat} (after : (sizes.take j).sum < bytes)
    (before : bytes < (sizes.take (j + 1)).sum) (field : Nat) : putWalk sizes field bytes = .partWay (field + j) := by
  induction sizes generalizing field j bytes with
  | nil => exact absurd before (by simp)
  | cons k rest ih =>
    cases j with
    | zero =>
      have short : bytes < k := by simpa using before
      rw [putWalk, if_neg (by omega), if_pos short]
      rfl
    | succ j =>
      rw [List.take_succ_cons, List.sum_cons] at after before
      rw [putWalk, if_neg (by omega), if_neg (by omega), ih (j := j) (by omega) (by omega)]
      congr 1
      omega

/-- Bytes beyond the last field overrun. -/
theorem putWalk_overrun {sizes : List Nat} {bytes : Nat} (beyond : sizes.sum < bytes) (field : Nat) :
    putWalk sizes field bytes = .overrun := by
  induction sizes generalizing field bytes with
  | nil => exact if_neg (Nat.ne_of_gt beyond)
  | cons k rest ih =>
    rw [List.sum_cons] at beyond
    rw [putWalk, if_neg (by omega), if_neg (by omega), ih (by omega)]

theorem RecordRef.fieldSizes_pos (ref : RecordRef) : ∀ k ∈ ref.fieldSizes, 0 < k := by
  cases ref with
  | zone | switch | sensor | binding | marshal | settings | handset | car => simp [RecordRef.fieldSizes]

/-! ### From the field pointer on -/

section
variable {sizes : List Nat} {field : Nat} (first : 1 ≤ field)
include first

/-- The bytes before field k, by those before the pointer and those from it on. -/
theorem sum_take_from {k : Nat} (later : field ≤ k) :
    (sizes.take (k - 1)).sum = (sizes.take (field - 1)).sum + ((sizes.drop (field - 1)).take (k - field)).sum := by
  rw [← sum_take_add, show field - 1 + (k - field) = k - 1 by omega]

/-- Values that end before field k: the pointer stands there. -/
theorem putWalk_from_upTo (filled : ∀ m ∈ sizes, 0 < m) {k bytes : Nat} (later : field ≤ k) (within : k ≤ sizes.length + 1)
    (ends : (sizes.take (field - 1)).sum + bytes = (sizes.take (k - 1)).sum) :
    putWalk (sizes.drop (field - 1)) field bytes = .upTo k := by
  have reach : bytes = ((sizes.drop (field - 1)).take (k - field)).sum :=
    Nat.add_left_cancel (ends.trans (sum_take_from first later))
  rw [reach, putWalk_upTo (fun m hm => filled m (List.mem_of_mem_drop hm)) (by rw [List.length_drop]; omega),
    Nat.add_sub_cancel' later]

/-- Values that end within field k, which is then not before the pointer. -/
theorem putWalk_from_partWay {k bytes : Nat}
    (after : (sizes.take (k - 1)).sum < (sizes.take (field - 1)).sum + bytes)
    (before : (sizes.take (field - 1)).sum + bytes < (sizes.take k).sum) :
    putWalk (sizes.drop (field - 1)) field bytes = .partWay k := by
  have later : field ≤ k := by
    by_contra earlier
    have split := sum_take_add sizes k (field - 1 - k)
    rw [show k + (field - 1 - k) = field - 1 by omega] at split
    omega
  have start := sum_take_from first (sizes := sizes) later
  have stop := sum_take_from first (sizes := sizes) (Nat.le_add_right_of_le (k := 1) later)
  rw [Nat.add_sub_cancel, Nat.sub_add_comm later] at stop
  rw [putWalk_partWay (j := k - field) (by omega) (by omega), Nat.add_sub_cancel' later]

end

/-- Values that run on past the last field. -/
theorem putWalk_from_overrun {sizes : List Nat} {start bytes : Nat}
    (beyond : sizes.sum < (sizes.take start).sum + bytes) (field : Nat) :
    putWalk (sizes.drop start) field bytes = .overrun := by
  refine putWalk_overrun ?_ field
  have split := sizes.sum_take_add_sum_drop start
  omega

/-! ## A staging put -/

theorem State.setStaging_port (s : State) (p : PortId) (x : Option Staging) :
    (s.setStaging p x).ports[p] = { s.ports[p] with staging := x } := by
  unfold State.setStaging
  rw [State.modPort_ports, if_pos rfl]

theorem State.setStaging_takes {s : State} {p : PortId} (takes : s.takes p) (x : Option Staging) :
    (s.setStaging p x).takes p := by
  refine ⟨takes.1, ?_⟩
  rw [State.setStaging_port]
  exact takes.2

/-- An apply empties the staging first, whatever it held. -/
theorem State.setStaging_applyStaged (s : State) (p : PortId) (x : Option Staging) (st : Staging) :
    (s.setStaging p x).applyStaged p st = s.applyStaged p st := by
  have emptied : (s.setStaging p x).setStaging p none = s.setStaging p none := by
    unfold State.setStaging State.modPort
    rw [modAt_modAt]
  unfold State.applyStaged
  rw [emptied]

/-! ## The request -/

section
variable {p : PortId} {s : State} (takes : s.takes p) {values : List Byte} (long : 1 ≤ values.length)
  (short : values.length ≤ 16)
include takes long short

/-- A PUT of 1 to 16 values is taken (R153, R157). -/
theorem exec_put : exec (.put p values) s = .next ((s.taken p).reqPut p values) := by
  have formed : (Instr.put p values).wellFormed = true := by
    simp [Instr.wellFormed, putLengthOk, long, short]
  have running : (s.endTransaction p).seq.starting = false := takes.1
  rw [exec_requestOf rfl formed s, State.riseOfSel_kept p _ takes.2, if_neg (ne_true_of_eq_false running),
    State.judgeRequest_row _ p (code := 0x12) rfl long short, State.endTransaction_setCheckError]
  rfl

theorem exec_put_empty (empty : (s.ports[p]).staging = none) :
    exec (.put p values) s = .next (s.answer p (.refused .noStaging)) := by
  rw [exec_put takes long short]
  unfold State.reqPut
  rw [State.taken_port_self]
  simp only [empty, State.taken_refuse]

section
variable {st : Staging} (staged : (s.ports[p]).staging = some st)
include staged

theorem exec_put_readOnly (readOnly : st.ref.readOnly = true) :
    exec (.put p values) s = .next ((s.setStaging p none).answer p (.refused .readOnly)) := by
  rw [exec_put takes long short]
  unfold State.reqPut
  rw [State.taken_port_self]
  simp only [staged, readOnly, if_true, State.setStaging_taken, State.taken_refuse]

section
variable (writable : st.ref.readOnly = false)
include writable

/-- The values end at the end of a field and leave another to come. -/
theorem exec_put_upTo {k : Nat} (reach : putWalk (st.ref.fieldSizes.drop (st.field - 1)) st.field values.length = .upTo k)
    (within : k ≤ st.ref.fieldSizes.length) :
    exec (.put p values) s = .next ((s.setStaging p (some (Staging.mk st.mode st.ref
      (overwrite st.image (fieldOffset st.ref.fieldSizes st.field) values) k))).answer p (.done [natByte k])) := by
  rw [exec_put takes long short]
  unfold State.reqPut
  rw [State.taken_port_self]
  simp only [staged, writable, reach, Nat.not_lt.2 within, if_false, State.setStaging_taken, State.taken_done,
    Bool.false_eq_true]

/-- The values end part way through a field. -/
theorem exec_put_partWay {k : Nat}
    (reach : putWalk (st.ref.fieldSizes.drop (st.field - 1)) st.field values.length = .partWay k) :
    exec (.put p values) s = .next ((s.setStaging p none).answer p (.refused (.range (natByte k)))) := by
  rw [exec_put takes long short]
  unfold State.reqPut
  rw [State.taken_port_self]
  simp only [staged, writable, reach, if_false, State.setStaging_taken, State.taken_refuse, Bool.false_eq_true]

/-- The values run on past the last field (log 9). -/
theorem exec_put_overrun
    (reach : putWalk (st.ref.fieldSizes.drop (st.field - 1)) st.field values.length = .overrun) :
    ∃ (k : Byte) (n : Nat), exec (.put p values) s =
      .next ((({ s with freeCount := n } : State).setStaging p none).answer p (.refused (.range k))) := by
  rw [exec_put takes long short]
  unfold State.reqPut
  rw [State.taken_port_self]
  simp only [staged, writable, reach, if_false, Bool.false_eq_true]
  refine ⟨Config.overrunField s.freeCount, s.freeCount + 1, congrArg Host.Outcome.next ?_⟩
  rw [← State.taken_refuse, ← State.setStaging_taken]
  rfl

/-- The values pass the last field: the record is applied with them. -/
theorem exec_put_applied
    (reach : putWalk (st.ref.fieldSizes.drop (st.field - 1)) st.field values.length =
      .upTo (st.ref.fieldSizes.length + 1)) :
    exec (.put p values) s = exec (.apply p) (s.setStaging p (some (Staging.mk st.mode st.ref
      (overwrite st.image (fieldOffset st.ref.fieldSizes st.field) values) (st.ref.fieldSizes.length + 1)))) := by
  rw [exec_put takes long short]
  unfold State.reqPut
  rw [State.taken_port_self]
  simp only [staged, writable, reach, Nat.lt_succ_self, if_true, if_false, Bool.false_eq_true]
  generalize Staging.mk st.mode st.ref (overwrite st.image (fieldOffset st.ref.fieldSizes st.field) values)
    (st.ref.fieldSizes.length + 1) = written
  rw [exec_apply_staged (State.setStaging_takes takes _) (congrArg Port.staging (s.setStaging_port p _)), ← State.setStaging_taken,
    State.setStaging_applyStaged]

end
end
end

/-- Settles O19: by the staging, and by where the values end among the writable fields. -/
theorem putWritesFromTheFieldPointer : Obligations.PutWritesFromTheFieldPointer := by
  intro p values s takes long short
  refine ⟨exec_put_empty takes long short, fun st staged => ⟨exec_put_readOnly takes long short staged,
    fun writable first _ => ⟨fun k later within ends => ?_, fun ends => ?_, fun k one within after before => ?_,
      fun beyond => ?_⟩⟩⟩
  · exact exec_put_upTo takes long short staged writable
      (putWalk_from_upTo first st.ref.fieldSizes_pos later.le (by omega) ends) within
  · refine exec_put_applied takes long short staged writable
      (putWalk_from_upTo first st.ref.fieldSizes_pos (by omega) le_rfl ?_)
    rw [Nat.add_sub_cancel, List.take_length]
    exact ends
  · exact exec_put_partWay takes long short staged writable (putWalk_from_partWay first after before)
  · exact exec_put_overrun takes long short staged writable (putWalk_from_overrun beyond _)

end Sys2Proof.Machine
end

section
/-! Every command is answered by a next state that leaves the queue of commands: the commands of the Frame Sequencer each by
what they write, every other command by its orderly move (9.2). -/

namespace Sys2Proof.Machine

/-- The outcome is a next state with the queue of commands of s. -/
def State.answeredBy (s : State) (o : Host.Outcome State Fault Refusal) : Prop :=
  ∃ t : State, o = .next t ∧ t.pending = s.pending

section
variable {s t : State}

theorem State.answeredBy_next (same : t.pending = s.pending) : s.answeredBy (.next t) := ⟨t, rfl, same⟩

/-- An event that is due moves to t; one that is not changes nothing (log 2). -/
theorem State.answeredBy_due {event : Prop} [Decidable event] (same : t.pending = s.pending) :
    s.answeredBy (if event then .next t else .next s) := by
  split
  · exact State.answeredBy_next same
  · exact State.answeredBy_next rfl

/-- The rows are read one by one, each by an orderly move (R148, R149). -/
theorem execRestore_answered (s : State) : s.answeredBy (execRestore s) := by
  cases starting : s.seq.starting with
  | false =>
    rw [execRestore_undue (.inl starting)]
    exact State.answeredBy_next rfl
  | true =>
    cases restored : s.seq.restored with
    | false =>
      have rows := s.restoreRows_orderly.pending
      rw [execRestore_due starting restored]
      generalize s.restoreRows = u at rows ⊢
      exact State.answeredBy_next rows
    | true =>
      rw [execRestore_undue (.inr restored)]
      exact State.answeredBy_next rfl

/-- The first frame begins and the writer chooses, neither of which touches the queue (R150). -/
theorem execRestoreEnd_answered (s : State) : s.answeredBy (execRestoreEnd s) :=
  State.answeredBy_due (State.chooseCommit_orderly _).pending

/-- The commands that move the Frame Sequencer, one by one. -/
theorem exec_movesSequencer_answered {c : Instr} (moves : movesSequencer c = true) (s : State) :
    s.answeredBy (exec c s) := by
  cases c
  case hardReset rcs => exact State.answeredBy_next rfl
  case trackTimeTick => exact State.answeredBy_next rfl
  case restore => exact execRestore_answered s
  case restoreEnd => exact execRestoreEnd_answered s
  case railFrameStart | broadcastWord | carWord | quietWindow => exact State.answeredBy_due rfl
  all_goals cases moves

end

/-- Settles O2: by whether the command moves the Frame Sequencer; one that does not makes an orderly move. -/
theorem everyCommandIsAnswered : Obligations.EveryCommandIsAnswered := by
  intro c s
  cases moves : movesSequencer c with
  | true => exact exec_movesSequencer_answered moves s
  | false =>
    obtain ⟨t, answered, orderly⟩ := exec_orderly moves s
    exact ⟨t, answered, orderly.pending⟩

end Sys2Proof.Machine
end
